-- ==== Sys2Proof/Word.lean ====
section
/-! DEFINITION. The bit-vector widths the manual names: bytes of a buffer, 32-bit registers and
command words, 16-bit sequence numbers (R8, R9, R10). -/

namespace Sys2Proof

/-- A byte of a buffer; bit 7 is its most significant bit (R8). -/
abbrev Byte := BitVec 8

/-- A register or command word; every register is 32 bits (10_state.md, head; R140). -/
abbrev Word := BitVec 32

/-- An RTP sequence number, with arithmetic modulo 2^16 (R9). -/
abbrev Seq := BitVec 16

/-- An arrival timestamp or the liveness threshold; TIME_BITS = 32 (00_scope.md §4, R403). -/
abbrev Time := BitVec 32

end Sys2Proof
end

