-- ==== Sys2Proof/Config.lean ====
section
/-! DEFINITION. What an implementation of the block fixes (00_scope.md §4, R4 to R7), the moves the
block's environment can make (R121), and the two free values: what a byte nothing has written reads
as (R69), and which agent moves next (R121, R122). -/

namespace Sys2Proof

/-- The two receive legs, numbered 0 and 1 (R4). -/
inductive Leg where
  | leg0
  | leg1
deriving DecidableEq, Repr, Inhabited

/-- DEMUX_PATTERN: which words of a 5-byte group go to which half (00_scope.md §4, R382). -/
inductive DemuxPattern where
  | abab
  | aabb
deriving DecidableEq, Repr

/-- FIELD_PHASE: which output line interlaced field 1 starts on (00_scope.md §4, R384). -/
inductive FieldPhase where
  | phase0
  | phase1
deriving DecidableEq, Repr

/-- What FRAME_TABLE gives for a frame code (R7). -/
structure FrameGeometry where
  activePixels : Nat
  activeLines : Nat
  scanlines : Nat
  interlaced : Bool
deriving DecidableEq, Repr

/-- One record of PROFILE_TABLE (R6). `frameRate` is an opaque rate identifier, compared only for
equality; `name` and `standard` are informative only. -/
structure Profile where
  name : String
  standard : String
  mapCode : BitVec 4
  activeWidth : Nat
  activeHeight : Nat
  scanlineWidth : Nat
  scanlinesNb : Nat
  componentsNb : Nat
  bitDepth : Nat
  field1First : Nat
  field1Last : Nat
  field2First : Nat
  field2Last : Nat
  frameRate : Nat
  interlaced : Bool
  multiplexed : Bool
deriving DecidableEq, Repr

/-- The 7-tuple a profile is matched on (R251, R253). -/
structure ProfileKey where
  activeWidth : Nat
  activeHeight : Nat
  scanlinesNb : Nat
  frameRate : Nat
  bitDepth : Nat
  mapCode : BitVec 4
  interlaced : Bool
deriving DecidableEq, Repr

/-- The OPEN parameters of the block (00_scope.md §4) and its four ROM tables (R6, R7, R70). The
manual makes each an argument of the model; `State` carries one `Config`, no command writes it, and
hardware reset keeps it (R490), so a statement about every state is about every configuration.
`hostBase` is the window base of R103. A table that is a partial function is a list of
(code, value) rows, in which the first row of a code counts. -/
structure Config where
  nslots : Nat
  frameBufBytes : Nat
  halfBufBytes : Nat
  maxPktBytes : Nat
  workBytes : Nat
  outBytes : Nat
  legCapacity : Nat
  evqDepth : Nat
  threshReset : Time
  profileTable : List Profile
  frameTable : List (BitVec 8 × FrameGeometry)
  frateTable : List (BitVec 8 × Nat)
  sampleTable : List (BitVec 4 × Nat)
  demuxPattern : DemuxPattern
  fieldPhase : FieldPhase
  hostBase : Nat
deriving DecidableEq, Repr

/-- The width of a host access (R104). -/
inductive Width where
  | byte
  | half
  | word
deriving DecidableEq, Repr, Inhabited

/-- One move of the block's environment (R121): a host access of 1, 2 or 4 bytes at a platform
address (R103, R104; the byte at the lowest address is the most significant one of the value), the
arrival of a packet on a leg (R158), or hardware reset (R490). A host write to ICMD or CCMD is what
issues a command (R33, R86). -/
inductive Move where
  | read (width : Width) (addr : Nat)
  | writeByte (addr : Nat) (value : BitVec 8)
  | writeHalf (addr : Nat) (value : BitVec 16)
  | writeWord (addr : Nat) (value : BitVec 32)
  | arrive (leg : Leg) (packet : List Byte) (time : Time)
  | hardReset
deriving DecidableEq, Repr, Inhabited

/-- FREE VALUE (R69, R108): what the byte at a block address reads as while nothing has written it
since the hardware reset numbered by the first argument. Nothing constrains it, and it stays the
same until a write or the next reset, since a location can be read any number of times with the
same result. -/
opaque Config.unwrittenByte : Nat → Nat → Byte

/-- FREE VALUE (R121, R122): the environment's n-th unscheduled move. Nothing constrains it, so the
five agents interleave in any order, with any operands. -/
opaque Config.environment : Nat → Move

/-- PT_2022_6, the payload type the assembler accepts (R312; fixed by 00_scope.md §4). -/
def Config.payloadType : BitVec 7 := 98

end Sys2Proof
end

