-- ==== Sys2Proof/Syntax.lean ====
section
/-! DEFINITION. The 17 commands of the opcode map (R152), one constructor per row of the table. -/

namespace Sys2Proof

/-- A command. A format-S command carries its SP code and its SL slot number (R140); a format-N
command carries nothing, since commands take no immediates. -/
inductive Instr where
  /-- W10GET (R210). -/
  | w10get (sp sl : Nat)
  /-- W10SET (R211). -/
  | w10set (sp sl : Nat)
  /-- RTPPARSE (R222). -/
  | rtpparse
  /-- HBRMTDEC (R243). -/
  | hbrmtdec
  /-- PROFRES (R255). -/
  | profres
  /-- CRCCOMP (R290). -/
  | crccomp (sp sl : Nat)
  /-- CRCWORDS (R291). -/
  | crcwords
  /-- CRCCHECK (R292). -/
  | crccheck (sp sl : Nat)
  /-- FARESET (R330). -/
  | fareset
  /-- FAADD (R311). -/
  | faadd
  /-- FAABORT (R331). -/
  | faabort
  /-- PSINIT (R420). -/
  | psinit
  /-- PSREAD (R409). -/
  | psread
  /-- MBNEXT (R370). -/
  | mbnext
  /-- MBTYPE (R371). -/
  | mbtype
  /-- MBEXTRACT (R381). -/
  | mbextract
  /-- MBRELEASE (R386). -/
  | mbrelease
deriving DecidableEq, Repr

end Sys2Proof
end

