-- ==== Sys2Proof/WellFormed.lean ====
section
/-! DEFINITION. Which commands have an encoding: the SP code and the SL slot number are 4-bit fields
(R140). A 4-bit SP code that names no space, or an SL past the last slot, is a well-formed command
that completes with BADARG (R148); it is not ill-formed. -/

namespace Sys2Proof

/-- The SP code and SL number fit their 4-bit fields (R140). -/
def fieldsFit (sp sl : Nat) : Bool := decide (sp < 16) && decide (sl < 16)

/-- The command has an encoding (R140). -/
def Instr.wellFormed : Instr → Bool
  | .w10get sp sl => fieldsFit sp sl
  | .w10set sp sl => fieldsFit sp sl
  | .rtpparse => true
  | .hbrmtdec => true
  | .profres => true
  | .crccomp sp sl => fieldsFit sp sl
  | .crcwords => true
  | .crccheck sp sl => fieldsFit sp sl
  | .fareset => true
  | .faadd => true
  | .faabort => true
  | .psinit => true
  | .psread => true
  | .mbnext => true
  | .mbtype => true
  | .mbextract => true
  | .mbrelease => true

end Sys2Proof
end

