-- ==== Sys2Proof/Decode.lean ====
section
/-! DEFINITION. Decoding a command word (R140, R152, R153, R154 step 1) and the encoder beside it. -/

namespace Sys2Proof

/-- The two command ports (R121). -/
inductive Port where
  | ingest
  | consumer
deriving DecidableEq, Repr

/-- Why a command word is illegal (R153). -/
inductive Reject where
  /-- Its OP is not in the opcode map. -/
  | unknownOpcode
  /-- It sets a bit its format says must be 0. -/
  | mustBeZero
  /-- It was written to the other port. -/
  | wrongPort
deriving DecidableEq, Repr

/-- The port a command belongs to (R152). -/
def Instr.port : Instr → Port
  | .w10get _ _ => .ingest
  | .w10set _ _ => .ingest
  | .rtpparse => .ingest
  | .hbrmtdec => .ingest
  | .profres => .ingest
  | .crccomp _ _ => .ingest
  | .crcwords => .ingest
  | .crccheck _ _ => .ingest
  | .fareset => .ingest
  | .faadd => .ingest
  | .faabort => .ingest
  | .psinit => .ingest
  | .psread => .ingest
  | .mbnext => .consumer
  | .mbtype => .consumer
  | .mbextract => .consumer
  | .mbrelease => .consumer

/-- A format-S word: bits [15:0] must be 0 (R140). -/
def decodeS (w : Word) (make : Nat → Nat → Instr) : Except Reject Instr :=
  if w.extractLsb' 0 16 = 0#16 then
    .ok (make (w.extractLsb' 20 4).toNat (w.extractLsb' 16 4).toNat)
  else .error .mustBeZero

/-- A format-N word: bits [23:0] must be 0 (R140). -/
def decodeN (w : Word) (i : Instr) : Except Reject Instr :=
  if w.extractLsb' 0 24 = 0#24 then .ok i else .error .mustBeZero

/-- The command a word stands for on either port, or why it stands for none (R152, R153). -/
def decode (w : Word) : Except Reject Instr :=
  match (w.extractLsb' 24 8).toNat with
  | 0x01 => decodeS w .w10get
  | 0x02 => decodeS w .w10set
  | 0x10 => decodeN w .rtpparse
  | 0x11 => decodeN w .hbrmtdec
  | 0x12 => decodeN w .profres
  | 0x18 => decodeS w .crccomp
  | 0x19 => decodeN w .crcwords
  | 0x1A => decodeS w .crccheck
  | 0x20 => decodeN w .fareset
  | 0x21 => decodeN w .faadd
  | 0x22 => decodeN w .faabort
  | 0x30 => decodeN w .psinit
  | 0x31 => decodeN w .psread
  | 0x40 => decodeN w .mbnext
  | 0x41 => decodeN w .mbtype
  | 0x42 => decodeN w .mbextract
  | 0x43 => decodeN w .mbrelease
  | _ => .error .unknownOpcode

/-- The command a word written to a port stands for, or why it is illegal there (R153). -/
def decodeOn (p : Port) (w : Word) : Except Reject Instr :=
  match decode w with
  | .ok i => if i.port = p then .ok i else .error .wrongPort
  | .error r => .error r

/-- A command word from its opcode and its SP and SL fields (R140, R155). -/
def encodeWord (op sp sl : Nat) : Word :=
  BitVec.ofNat 32 (op <<< 24 ||| sp <<< 20 ||| sl <<< 16)

/-- The word of a command (R152, R155). -/
def encode : Instr → Word
  | .w10get sp sl => encodeWord 0x01 sp sl
  | .w10set sp sl => encodeWord 0x02 sp sl
  | .rtpparse => encodeWord 0x10 0 0
  | .hbrmtdec => encodeWord 0x11 0 0
  | .profres => encodeWord 0x12 0 0
  | .crccomp sp sl => encodeWord 0x18 sp sl
  | .crcwords => encodeWord 0x19 0 0
  | .crccheck sp sl => encodeWord 0x1A sp sl
  | .fareset => encodeWord 0x20 0 0
  | .faadd => encodeWord 0x21 0 0
  | .faabort => encodeWord 0x22 0 0
  | .psinit => encodeWord 0x30 0 0
  | .psread => encodeWord 0x31 0 0
  | .mbnext => encodeWord 0x40 0 0
  | .mbtype => encodeWord 0x41 0 0
  | .mbextract => encodeWord 0x42 0 0
  | .mbrelease => encodeWord 0x43 0 0

/-- The command word of an instruction whose bits are `w`: a command is one 32-bit word. -/
def wordOfBits (nbits w : Nat) : Word := BitVec.ofNat 32 (w % 2 ^ nbits)

/-- The instruction the decoder reads from the bits of an opcode-table row. -/
def decodeTableWord (nbits w : Nat) : Option Instr :=
  match decode (wordOfBits nbits w) with
  | .ok i => some i
  | .error _ => none

end Sys2Proof
end

