-- ==== Sys2Proof/Machine/Geometry.lean ====
section
/-! DEFINITION. The derived quantities of a profile (R250), the lookups of the code tables and the
profile table (R7, R251), and which configurations the model refuses (R5, R6, R7). -/

namespace Sys2Proof

/-- scanlineSizeBytes (R250). -/
def Profile.scanlineSizeBytes (p : Profile) : Nat := p.scanlineWidth * p.componentsNb * p.bitDepth / 8

/-- frameSizeBytes (R250). -/
def Profile.frameSizeBytes (p : Profile) : Nat := p.scanlineSizeBytes * p.scanlinesNb

/-- transportFrameSizeBytes (R250). -/
def Profile.transportFrameSizeBytes (p : Profile) : Nat :=
  p.frameSizeBytes * (if p.multiplexed then 2 else 1)

/-- xOffsetBytes (R250). -/
def Profile.xOffsetBytes (p : Profile) : Nat :=
  (p.scanlineWidth - p.activeWidth) * p.componentsNb * p.bitDepth / 8

/-- activeWidthBytes (R250). -/
def Profile.activeWidthBytes (p : Profile) : Nat := p.activeWidth * p.componentsNb * p.bitDepth / 8

/-- The 7-tuple of a record (R251). -/
def Profile.key (p : Profile) : ProfileKey where
  activeWidth := p.activeWidth
  activeHeight := p.activeHeight
  scanlinesNb := p.scanlinesNb
  frameRate := p.frameRate
  bitDepth := p.bitDepth
  mapCode := p.mapCode
  interlaced := p.interlaced

/-- FRAME_TABLE (R7). -/
def Config.frame (c : Config) (code : BitVec 8) : Option FrameGeometry := c.frameTable.lookup code

/-- FRATE_TABLE (R7). -/
def Config.frate (c : Config) (code : BitVec 8) : Option Nat := c.frateTable.lookup code

/-- SAMPLE_TABLE (R7). -/
def Config.sample (c : Config) (idx : BitVec 4) : Option Nat := c.sampleTable.lookup idx

/-- Line(pr, j): the source scanline of output line j (R384). -/
def Profile.line (p : Profile) (phase : FieldPhase) (j : Nat) : Nat :=
  if p.interlaced = false then p.field1First + j
  else
    let fa := match phase with
      | .phase0 => p.field1First
      | .phase1 => p.field2First
    let fb := match phase with
      | .phase0 => p.field2First
      | .phase1 => p.field1First
    if j % 2 = 0 then fa + j / 2 else fb + (j - 1) / 2

/-- A naturals field "each at least 1" (R6). -/
def Profile.positive (p : Profile) : Bool :=
  decide (1 ≤ p.activeWidth) && decide (1 ≤ p.activeHeight) && decide (1 ≤ p.scanlineWidth) &&
    decide (1 ≤ p.scanlinesNb) && decide (1 ≤ p.componentsNb) && decide (1 ≤ p.bitDepth)

/-- The divisibility conditions of R6. -/
def Profile.divisible (p : Profile) : Bool :=
  decide (p.scanlineWidth * p.componentsNb * p.bitDepth % 8 = 0) &&
    decide (p.activeWidth ≤ p.scanlineWidth) &&
    decide ((p.scanlineWidth - p.activeWidth) * p.componentsNb * p.bitDepth % 8 = 0) &&
    decide (p.activeWidth * p.componentsNb * p.bitDepth % 8 = 0) &&
    decide (p.frameSizeBytes % 5 = 0)

/-- The conditions of R6 on a level-B dual-link record. -/
def Profile.dualLinkOk (p : Profile) : Bool :=
  !p.multiplexed || (decide (p.frameSizeBytes % 10 = 0) && decide (p.bitDepth = 10))

/-- Every line the extraction reads is below `scanlinesNb` (R6). -/
def Profile.linesOk (p : Profile) : Bool :=
  if p.interlaced then
    decide (p.activeHeight % 2 = 0) && decide (p.field1Last < p.scanlinesNb) &&
      decide (p.field2Last < p.scanlinesNb) &&
      decide (p.field1Last + 1 = p.field1First + p.activeHeight / 2) &&
      decide (p.field2Last + 1 = p.field2First + p.activeHeight / 2)
  else decide (p.field1First + p.activeHeight ≤ p.scanlinesNb)

/-- A record R6 allows. -/
def Profile.wf (p : Profile) : Bool := p.positive && p.divisible && p.dualLinkOk && p.linesOk

/-- PROFILE_TABLE as R6 allows it: at most 255 records, each well-formed, no two with one 7-tuple. -/
def Config.tableOk (c : Config) : Bool :=
  decide (c.profileTable.length ≤ 255) && c.profileTable.all Profile.wf &&
    decide ((c.profileTable.map Profile.key).Nodup)

/-- Each code table maps code 0 to none (R7). -/
def Config.codeZeroNone (c : Config) : Bool :=
  (c.frame 0).isNone && (c.frate 0).isNone && (c.sample 0).isNone

/-- The ranges of 00_scope.md §4. -/
def Config.rangesOk (c : Config) : Bool :=
  decide (1 ≤ c.nslots) && decide (c.nslots ≤ 16) && decide (c.frameBufBytes ≤ 2 ^ 24) &&
    decide (c.halfBufBytes ≤ 2 ^ 24) && decide (20 ≤ c.maxPktBytes) &&
    decide (c.maxPktBytes ≤ 65535) && decide (c.workBytes ≤ 2 ^ 24) &&
    decide (c.outBytes ≤ 2 ^ 24) && decide (1 ≤ c.legCapacity) && decide (1 ≤ c.evqDepth)

/-- Tmax (R5): the largest transportFrameSizeBytes of the table. R5 does not say what it is for an empty
table, which R6 allows: the model takes 0 there (DESIGN CHOICE, assumption 20). -/
def Config.maxTransport (c : Config) : Nat :=
  c.profileTable.foldr (fun p m => max p.transportFrameSizeBytes m) 0

/-- Pmax (R5): the largest HBRMT payload a packet can carry. -/
def Config.maxPayload (c : Config) : Nat := c.maxPktBytes - 20

/-- The three conditions of R5. -/
def Config.buffersOk (c : Config) : Bool :=
  decide (c.maxTransport + c.maxPayload ≤ c.frameBufBytes + 1) &&
    (c.profileTable.all (fun p => !p.multiplexed) || decide (c.maxTransport ≤ 2 * c.halfBufBytes)) &&
    c.profileTable.all fun p => decide (p.activeHeight * p.activeWidthBytes ≤ c.outBytes)

/-- A configuration the model gives a meaning to (R5, R6, R7; I10). -/
def Config.wf (c : Config) : Bool := c.rangesOk && c.tableOk && c.codeZeroNone && c.buffersOk

end Sys2Proof
end

