-- ==== Sys2Proof/Machine/State.lean ====
section
/-! DEFINITION. Everything the spec gives the block to hold (10_state.md), as plain data, the reasons a
step can stop, and the state after hardware reset (R490).

A register the manual lays out in fields is held as those fields, so that its reserved bits read 0
and a code the manual says never occurs cannot be written; `Machine/Flags.lean` and
`Machine/Registers.lean` give the 32-bit word the host reads. A field that the manual defines as
equal to another piece of state (PS_STATE.CATCHUP and HELD, PS_EVQ_COUNT, MB_QCOUNT, an entry's
`len`) is not held twice. -/

namespace Sys2Proof.Machine

open Sys2Proof

/-- The status codes (R450). No other value ever appears in CODE. -/
inductive Status where
  | ok
  | illegal
  | badArg
  | fatal
  | malformed
  | ptDrop
  | discarded
  | resync
  | appended
  | complete
  | notDefined
  | delivered
  | packetLost
  | unrecoverable
  | noData
  | duplicate
  | overrun
  | crcPass
  | crcFail
  | badToken
  | tooSmall
  | unsupported
  | badSlot
deriving DecidableEq, Repr

/-- The three result bits of ISTAT beside CODE and BUSY (R32). -/
structure CmdFlags where
  loss : Bool := false
  repaired : Bool := false
  swap : Bool := false
deriving DecidableEq, Repr

/-- ISTAT (R32). -/
structure IngestStat where
  code : Status
  busy : Bool
  flags : CmdFlags
deriving DecidableEq, Repr

/-- CSTAT (R85). -/
structure ConsumerStat where
  code : Status
  busy : Bool
deriving DecidableEq, Repr

/-- The ingest port's registers: ICMD (R33), ISTAT (R32), PKT_LEN.LEN (R34), IA0 to IA3, IR0 and IR1
(R35). -/
structure IngestPort where
  cmd : Word
  stat : IngestStat
  pktLen : BitVec 16
  ia0 : Word
  ia1 : Word
  ia2 : Word
  ia3 : Word
  ir0 : Word
  ir1 : Word
deriving DecidableEq, Repr

/-- The consumer port's registers: CCMD (R86), CSTAT (R85), CA0, CA1, CR0 and CR1 (R87). -/
structure ConsumerPort where
  cmd : Word
  stat : ConsumerStat
  ca0 : Word
  ca1 : Word
  cr0 : Word
  cr1 : Word
deriving DecidableEq, Repr

/-- The decoded-header and result registers: RTP_HDR, RTP_TS, RTP_SSRC (R37), HB_W0, HB_W1, HB_TS,
HB_LEN.HDRLEN and PAYLEN (R38), PROF_RES.INDEX and STAGE (R39), CRC_REM and the two words of
CRC_WORDS (R40). -/
structure HeaderRegs where
  rtpHdr : Word
  rtpTs : Word
  rtpSsrc : Word
  hbW0 : Word
  hbW1 : Word
  hbTs : Word
  hbHdrLen : BitVec 16
  hbPayLen : BitVec 16
  profIndex : BitVec 8
  profStage : BitVec 3
  crcRem : BitVec 18
  crcWord0 : BitVec 10
  crcWord1 : BitVec 10
deriving DecidableEq, Repr

/-- The assembler's states (R310). The code 3 of FA_STATE.STATE never occurs (R41). -/
inductive FaState where
  | waitingSync
  | collecting
  | complete
deriving DecidableEq, Repr

/-- The frame assembler's registers: the fields of FA_STATE (R41), FA_LASTSEQ (R42), FA_ACC (R43),
FA_PKTCNT (R44), FA_PADDING (R45) and FA_FRAMESIZE (R46). `profile` is none exactly when BOUND = 0
(PROFILE then reads 0xFF); `cur` is none when the assembler owns no slot (CUR_SLOT then reads
0xFF). -/
structure Assembler where
  state : FaState
  first : Bool
  profile : Option (BitVec 8)
  cur : Option (BitVec 8)
  lastFrcount : BitVec 8
  lastSeq : Seq
  acc : Word
  pktcnt : Word
  padding : Word
  frameSize : Word
deriving DecidableEq, Repr

/-- FATAL.CAUSE (R47, R455). -/
inductive FatalCause where
  | profile
  | length
  | overflow
deriving DecidableEq, Repr

/-- What FATAL records once its bit 0 is set (R47). -/
structure FatalRecord where
  cause : FatalCause
  stage : BitVec 3
  seq : Seq
deriving DecidableEq, Repr

/-- The twelve counters (R52), each 32 bits, wrapping (R10). -/
structure Counters where
  malformed : Word
  ptDrop : Word
  seqLoss : Word
  frames : Word
  psGap : Word
  psRepaired : Word
  psUnrecov : Word
  psSwap : Word
  psDup : Word
  psOverrun : Word
  psEvqDrop : Word
  psRxMalformed : Word
deriving DecidableEq, Repr

/-- Event kinds (R54). -/
inductive EventKind where
  | malformed
  | ptDrop
  | seqLoss
  | profileFatal
  | lengthFatal
  | overflowFatal
  | psGap
  | psUnrecov
  | psSwap
  | psDup
  | psOverrun
  | psEvqDrop
  | psRxMalformed
deriving DecidableEq, Repr

/-- One recorded event (R53): its kind, the leg when LEG_VALID = 1, and the FIRST and LAST sequence
numbers when SEQ_VALID = 1. Its stage is the one R54 gives its kind. -/
structure EventRecord where
  kind : EventKind
  leg : Option Leg
  range : Option (Seq × Seq)
deriving DecidableEq, Repr

/-- EV_COUNT, and the last event, which EV_INFO and EV_SEQ show (R53); none after reset, when both
read 0. -/
structure EventLog where
  count : Word
  last : Option EventRecord
deriving DecidableEq, Repr

/-- A packet in a ring entry or held: its sequence number and its bytes (R64, R67); `len` is the
number of its bytes. -/
structure Packet where
  seq : Seq
  bytes : List Byte
deriving DecidableEq, Repr

/-- The held packet, with the leg it was popped from (R67). -/
structure HeldPacket where
  packet : Packet
  leg : Leg
deriving DecidableEq, Repr

/-- One entry of the arrival-event queue (R66). -/
structure ArrivalEvent where
  leg : Leg
  seq : Seq
  time : Time
deriving DecidableEq, Repr

/-- What the switch keeps for one leg: its circular receive buffer, of LEG_CAPACITY entries (R64),
its last-arrival time (R65) and its ONLINE flag (R48). -/
structure LegState where
  ring : List (Option Packet)
  lastArrival : Option Time
  online : Bool
deriving DecidableEq, Repr

/-- The protection switch: PS_STATE.MASTER (R48), the legs, the expected sequence (R68; none when
EXP_VALID = 0), PS_PENDING (R49), the held packet (R67), PS_HELD_SEQ (R51), the arrival-event queue,
oldest first (R66), and PS_THRESH (R36). -/
structure Switch where
  master : Leg
  leg0 : LegState
  leg1 : LegState
  expected : Option Seq
  pending : BitVec 16
  held : Option HeldPacket
  heldSeq : Seq
  evq : List ArrivalEvent
  thresh : Time
deriving DecidableEq, Repr

/-- A frame slot's state (R60). -/
inductive SlotState where
  | free
  | filling
  | ready
deriving DecidableEq, Repr

/-- A frame slot's metadata (R60). Its frame buffer and half-frame buffers are in the memory. -/
structure Slot where
  state : SlotState
  profile : BitVec 8
  padding : Word
  dual : Bool
  demuxed : Bool
  gen : BitVec 16
deriving DecidableEq, Repr

/-- The whole block, with the configuration it was built with and the environment it stands in.

The fields from `config` to `hostData` are the MODEL's own: the configuration (R70; see `Config`),
the environment's next moves in order (`agenda`), how many moves the free environment has made
(`moves`), how many hardware resets there have been (`epoch`, which numbers the free bytes of
`Config.unwrittenByte`), and the value the host's last read returned (`hostData`).

`mem` holds the buffer spaces PKT, WORK, OUT, FRAME, HALFA and HALFB (R60, R69, R100) at their block
addresses of R101, in the canonical form `memWf` of Machine/Ops.lean. -/
structure State where
  config : Config
  agenda : List Move
  moves : Nat
  epoch : Nat
  hostData : Word
  ing : IngestPort
  con : ConsumerPort
  hdr : HeaderRegs
  fa : Assembler
  fatal : Option FatalRecord
  ps : Switch
  cnt : Counters
  ev : EventLog
  slots : List Slot
  ready : List Word
  mem : List Host.Cell
deriving DecidableEq, Repr

/-- Why the machine stops where the spec gives the situation no meaning. No run from reset reaches
either: the obligation on faults states it. Both are safe, since the model stops where the spec
says nothing. -/
inductive Fault where
  /-- A block-internal MemRead or MemWrite past the end of its space, which R100 leaves undefined.
  Raised by `memRead` and `memWrite` (FAADD, PSREAD, MBEXTRACT). Safe. -/
  | outsideSpace
  /-- PROFILE_TABLE was indexed at a profile it does not hold: R319 with no bound profile, or a
  slot or binding whose index is past the table. Raised by FAADD and MBEXTRACT. Safe. -/
  | noProfile
  /-- Catch-up with no expected sequence or no held packet, which R411 says never happens. Raised
  by PSREAD. Safe. -/
  | noHeldPacket
deriving DecidableEq, Repr

/-- Why the model gives no meaning. -/
inductive Refusal where
  /-- A command whose arm has no meaning yet; raised by `exec` only. Safe. -/
  | notModelled (mnemonic : String)
  /-- The configuration breaks R5, R6, R7 or a range of 00_scope.md §4, and the spec says to refuse
  it. Raised by `step`. Safe. -/
  | invalidConfiguration
deriving DecidableEq, Repr

/-- A ring whose every entry is empty (R64). -/
def emptyRing (c : Config) : List (Option Packet) := List.replicate c.legCapacity none

/-- A leg at reset and after PSINIT: nothing received, Offline (R64, R65, R404). -/
def LegState.initial (c : Config) : LegState :=
  { ring := emptyRing c, lastArrival := none, online := false }

/-- Slot 0 at reset: FILLING (R60, R61). -/
def Slot.initialFilling : Slot :=
  { state := .filling, profile := 0xFF, padding := 0, dual := false, demuxed := false, gen := 0 }

/-- Every other slot at reset: FREE (R60, R61). -/
def Slot.initialFree : Slot := { Slot.initialFilling with state := .free }

/-- The slots at reset (R60). -/
def initialSlots (c : Config) : List Slot :=
  match c.nslots with
  | 0 => []
  | n + 1 => Slot.initialFilling :: List.replicate n Slot.initialFree

/-- The block with configuration `c` right after hardware reset (R490), in an environment with no
scheduled move. -/
def State.resetOf (c : Config) : State where
  config := c
  agenda := []
  moves := 0
  epoch := 0
  hostData := 0
  ing :=
    { cmd := 0
      stat := { code := .ok, busy := false, flags := {} }
      pktLen := 0
      ia0 := 0, ia1 := 0, ia2 := 0, ia3 := 0
      ir0 := 0, ir1 := 0 }
  con := { cmd := 0, stat := { code := .ok, busy := false }, ca0 := 0, ca1 := 0, cr0 := 0, cr1 := 0 }
  hdr :=
    { rtpHdr := 0, rtpTs := 0, rtpSsrc := 0
      hbW0 := 0, hbW1 := 0, hbTs := 0, hbHdrLen := 0, hbPayLen := 0
      profIndex := 0xFF, profStage := 0
      crcRem := 0, crcWord0 := 0, crcWord1 := 0 }
  fa :=
    { state := .collecting, first := true, profile := none, cur := some 0, lastFrcount := 0
      lastSeq := 0, acc := 0, pktcnt := 0, padding := 0, frameSize := 0 }
  fatal := none
  ps :=
    { master := .leg0
      leg0 := LegState.initial c, leg1 := LegState.initial c
      expected := none, pending := 0, held := none, heldSeq := 0, evq := []
      thresh := c.threshReset }
  cnt :=
    { malformed := 0, ptDrop := 0, seqLoss := 0, frames := 0, psGap := 0, psRepaired := 0
      psUnrecov := 0, psSwap := 0, psDup := 0, psOverrun := 0, psEvqDrop := 0, psRxMalformed := 0 }
  ev := { count := 0, last := none }
  slots := initialSlots c
  ready := []
  mem := []

/-- The profile records of the spec's test tables (95_test_vectors.md §2). Rate R60 is identifier 60. -/
def testProfiles : List Profile :=
  [ { name := "P0 T8x3p", standard := "test", mapCode := 0, activeWidth := 4, activeHeight := 2
      scanlineWidth := 8, scanlinesNb := 3, componentsNb := 2, bitDepth := 10
      field1First := 1, field1Last := 2, field2First := 0, field2Last := 0
      frameRate := 60, interlaced := false, multiplexed := false },
    { name := "P1 T8x3DL", standard := "test", mapCode := 2, activeWidth := 4, activeHeight := 2
      scanlineWidth := 8, scanlinesNb := 3, componentsNb := 2, bitDepth := 10
      field1First := 1, field1Last := 2, field2First := 0, field2Last := 0
      frameRate := 60, interlaced := false, multiplexed := true },
    { name := "P2 T4x5i", standard := "test", mapCode := 0, activeWidth := 4, activeHeight := 4
      scanlineWidth := 4, scanlinesNb := 5, componentsNb := 2, bitDepth := 10
      field1First := 1, field1Last := 2, field2First := 3, field2Last := 4
      frameRate := 60, interlaced := true, multiplexed := false } ]

/-- The spec's test configuration (95_test_vectors.md §2). DESIGN CHOICE: the spec leaves the
configuration OPEN and `State.reset` needs one; THRESH_RESET, which §2 does not give, is 0, and the
window base is 0. Unsafe for a statement about `State.reset` alone; see assumptions 2 and 3. -/
def testConfig : Config where
  nslots := 2
  frameBufBytes := 1599
  halfBufBytes := 60
  maxPktBytes := 1500
  workBytes := 65536
  outBytes := 64
  legCapacity := 4
  evqDepth := 8
  threshReset := 0
  profileTable := testProfiles
  frameTable :=
    [ (0x01, { activePixels := 4, activeLines := 2, scanlines := 3, interlaced := false }),
      (0x02, { activePixels := 4, activeLines := 4, scanlines := 5, interlaced := true }) ]
  frateTable := [ (0x10, 60) ]
  sampleTable := [ (1, 10), (2, 10) ]
  demuxPattern := .abab
  fieldPhase := .phase0
  hostBase := 0

/-- The machine right after reset, with the spec's test configuration. -/
def State.reset : State := State.resetOf testConfig

end Sys2Proof.Machine
end

