-- ==== Sys2Proof/Machine/Ops.lean ====
section
/-! DEFINITION. The shared operations over the buffer spaces (R100 to R107), the 10-bit word primitive
(R200, R201), the event record (R53, R54), the block's one trap, Fatal (R455), and the one return
from it, hardware reset (R457, R490). -/

namespace Sys2Proof.Machine

open Sys2Proof

/-! ## The memory: a sorted list of written bytes -/

/-- The byte listed at an address, or none: nothing has written it since reset (R69). -/
def memGet (m : List Host.Cell) (a : Nat) : Option Byte :=
  match m with
  | [] => none
  | (b, v) :: rest => if a = b then some v else memGet rest a

/-- The memory after byte `v` is written at address `a`. -/
def memSet (m : List Host.Cell) (a : Nat) (v : Byte) : List Host.Cell :=
  match m with
  | [] => [(a, v)]
  | (b, w) :: rest =>
    if a < b then (a, v) :: (b, w) :: rest
    else if a = b then (a, v) :: rest
    else (b, w) :: memSet rest a v

/-- The memory after consecutive bytes are written from address `a` on. -/
def memSetAll (m : List Host.Cell) (a : Nat) (bs : List Byte) : List Host.Cell :=
  match bs with
  | [] => m
  | b :: rest => memSetAll (memSet m a b) (a + 1) rest

/-- The canonical form: the addresses strictly rise. An unlisted byte has no value of its own (R69),
so no listed byte can equal what it reads as. -/
def memWf (m : List Host.Cell) : Bool := decide ((m.map Prod.fst).Pairwise (· < ·))

/-- What the byte at a block address reads as: the last value written, or a free value that stays
the same until the byte is written or the block reset (R69, R108). -/
def State.byteAt (s : State) (a : Nat) : Byte :=
  match memGet s.mem a with
  | some v => v
  | none => Config.unwrittenByte s.epoch a

/-! ## The buffer spaces -/

/-- A buffer space (R100). -/
inductive Space where
  | pkt
  | work
  | out
  | frame (slot : Nat)
  | halfA (slot : Nat)
  | halfB (slot : Nat)
deriving DecidableEq, Repr

/-- The window id of a space (R101). -/
def Space.window : Space → Nat
  | .pkt => 0x01
  | .work => 0x02
  | .out => 0x03
  | .frame s => 0x10 + s
  | .halfA s => 0x20 + s
  | .halfB s => 0x30 + s

/-- The block address of a space's byte 0 (R101). -/
def Space.base (sp : Space) : Nat := sp.window * 2 ^ 24

/-- The size of a space in bytes; the spaces of a slot that is not there hold nothing (R100). -/
def Space.size (c : Config) : Space → Nat
  | .pkt => c.maxPktBytes
  | .work => c.workBytes
  | .out => c.outBytes
  | .frame s => if s < c.nslots then c.frameBufBytes else 0
  | .halfA s => if s < c.nslots then c.halfBufBytes else 0
  | .halfB s => if s < c.nslots then c.halfBufBytes else 0

/-- Byte `o` of a space. -/
def State.spaceByte (s : State) (sp : Space) (o : Nat) : Byte := s.byteAt (sp.base + o)

/-- Bytes `off` to `off + n − 1` of a space. -/
def State.spaceBytes (s : State) (sp : Space) (off n : Nat) : List Byte :=
  (List.range n).map fun k => s.spaceByte sp (off + k)

/-- MemRead (R100), defined only inside the space. -/
def memRead (s : State) (sp : Space) (off n : Nat) : Option (List Byte) :=
  if off + n ≤ sp.size s.config then some (s.spaceBytes sp off n) else none

/-- MemWrite (R100), defined only inside the space. -/
def memWrite (s : State) (sp : Space) (off : Nat) (bs : List Byte) : Option State :=
  if off + bs.length ≤ sp.size s.config then
    some { s with mem := memSetAll s.mem (sp.base + off) bs }
  else none

/-- One byte written to a space. -/
def State.setSpaceByte (s : State) (sp : Space) (o : Nat) (v : Byte) : State :=
  { s with mem := memSet s.mem (sp.base + o) v }

/-! ## Byte order (R8, R105) -/

/-- be16: the byte at the lower offset holds the more significant bits (R8). -/
def be16 (s : State) (sp : Space) (o : Nat) : BitVec 16 :=
  s.spaceByte sp o ++ s.spaceByte sp (o + 1)

/-- be32 (R8). -/
def be32 (s : State) (sp : Space) (o : Nat) : BitVec 32 :=
  be16 s sp o ++ be16 s sp (o + 2)

/-- The four bytes of a word, most significant first (R104). -/
def bytesOfWord (v : Word) : List Byte :=
  [v.extractLsb' 24 8, v.extractLsb' 16 8, v.extractLsb' 8 8, v.extractLsb' 0 8]

/-- The two bytes of a half word, most significant first (R104). -/
def bytesOfHalf (v : BitVec 16) : List Byte := [v.extractLsb' 8 8, v.extractLsb' 0 8]

/-! ## The 10-bit word primitive (R146, R200, R201) -/

/-- The byte offset of the first of the two bytes word `i` touches: its group, plus its lane (R200). -/
def wordByte (i : Nat) : Nat := (i / 4) * 5 + i % 4

/-- SHIFT, by lane (R146, R200). -/
def laneShift (lane : Nat) : Nat :=
  match lane with
  | 0 => 6
  | 1 => 4
  | 2 => 2
  | _ => 0

/-- MASK, by lane (R146, R201). -/
def laneMask (lane : Nat) : BitVec 16 :=
  match lane with
  | 0 => 0xFFC0
  | 1 => 0x3FF0
  | 2 => 0x0FFC
  | _ => 0x03FF

/-- GetWord (R200). Its callers check that both bytes are inside the space. -/
def getWord (s : State) (sp : Space) (i : Nat) : BitVec 10 :=
  ((be16 s sp (wordByte i)) >>> laneShift (i % 4)).setWidth 10

/-- The 16 bits of a word's two bytes with a 10-bit value put into the word's lane (R201). -/
def mergeWord (lane : Nat) (old : BitVec 16) (v : BitVec 10) : BitVec 16 :=
  (old &&& ~~~(laneMask lane)) ||| ((v.setWidth 16 <<< laneShift lane) &&& laneMask lane)

/-- SetWord (R201): a read-modify-write of the two bytes GetWord reads. -/
def setWord (s : State) (sp : Space) (i : Nat) (v : BitVec 10) : State :=
  let n := mergeWord (i % 4) (be16 s sp (wordByte i)) v
  (s.setSpaceByte sp (wordByte i) (n.extractLsb' 8 8)).setSpaceByte sp (wordByte i + 1)
    (n.extractLsb' 0 8)

/-- Word `i` lies inside the space: both its bytes do (R200, R210). Exact arithmetic, no wrap. -/
def wordFits (c : Config) (sp : Space) (i : Nat) : Bool := decide (wordByte i + 1 < sp.size c)

/-! ## Slots -/

/-- The slots with slot `k` changed. -/
def modifySlot (slots : List Slot) (k : Nat) (f : Slot → Slot) : List Slot := slots.modify k f

/-! ## The event record (R53, R54) -/

/-- RecordEvent (R53). The stage is the one R54 gives the kind. -/
def recordEvent (s : State) (kind : EventKind) (leg : Option Leg) (range : Option (Seq × Seq)) :
    State :=
  { s with ev := { count := s.ev.count + 1, last := some { kind, leg, range } } }

/-! ## The trap and the return from it -/

/-- `raise Fatal` (R455): FATAL is written; the command that raised it then ends with status FATAL. -/
def raiseFatal (s : State) (cause : FatalCause) (stage : BitVec 3) (seq : Seq) : State :=
  { s with fatal := some { cause, stage, seq } }

/-- Hardware reset (R490), the only return from Fatal (R457): every piece of state at its reset
value. The configuration stays, the buffers are unspecified anew (a new epoch of free bytes), and
the environment's schedule and the value the host last read are not the block's. -/
def State.hardReset (s : State) : State :=
  { State.resetOf s.config with
    agenda := s.agenda, moves := s.moves, epoch := s.epoch + 1, hostData := s.hostData }

end Sys2Proof.Machine
end

