-- ==== Sys2Proof/Machine/Flags.lean ====
section
/-! DEFINITION. Status codes (R450), how a command completes or holds on its port (R11, R32, R85), the
fatal gate (R456), and the words the host reads of the status registers. -/

namespace Sys2Proof.Machine

open Sys2Proof

/-- The 8-bit code of a status (R450). -/
def statusCode : Status → BitVec 8
  | .ok => 0x00
  | .illegal => 0x01
  | .badArg => 0x02
  | .fatal => 0x03
  | .malformed => 0x10
  | .ptDrop => 0x11
  | .discarded => 0x12
  | .resync => 0x13
  | .appended => 0x14
  | .complete => 0x15
  | .notDefined => 0x18
  | .delivered => 0x20
  | .packetLost => 0x21
  | .unrecoverable => 0x22
  | .noData => 0x23
  | .duplicate => 0x24
  | .overrun => 0x25
  | .crcPass => 0x30
  | .crcFail => 0x31
  | .badToken => 0x40
  | .tooSmall => 0x41
  | .unsupported => 0x42
  | .badSlot => 0x43

/-- A flag as a bit at a position of a register word. -/
def bitAt (b : Bool) (pos : Nat) : Word := if b then 1 <<< pos else 0

/-- A field at a position of a register word. -/
def fieldAt {n : Nat} (v : BitVec n) (pos : Nat) : Word := v.setWidth 32 <<< pos

/-- ISTAT as the host reads it (R32). -/
def istatWord (t : IngestStat) : Word :=
  fieldAt (statusCode t.code) 0 ||| bitAt t.busy 8 ||| bitAt t.flags.loss 9 |||
    bitAt t.flags.repaired 10 ||| bitAt t.flags.swap 11

/-- CSTAT as the host reads it (R85). -/
def cstatWord (t : ConsumerStat) : Word := fieldAt (statusCode t.code) 0 ||| bitAt t.busy 8

/-- FA_STATE.STATE (R41). -/
def faStateCode : FaState → BitVec 2
  | .waitingSync => 0
  | .collecting => 1
  | .complete => 2

/-- FA_STATE as the host reads it (R41). -/
def faStateWord (f : Assembler) : Word :=
  fieldAt (faStateCode f.state) 0 ||| bitAt f.first 2 ||| bitAt f.profile.isSome 3 |||
    fieldAt (f.profile.getD 0xFF) 8 ||| fieldAt (f.cur.getD 0xFF) 16 ||| fieldAt f.lastFrcount 24

/-- FATAL.CAUSE (R47, R455). -/
def fatalCauseCode : FatalCause → BitVec 3
  | .profile => 1
  | .length => 2
  | .overflow => 3

/-- FATAL as the host reads it (R47, R455). -/
def fatalWord : Option FatalRecord → Word
  | none => 0
  | some r =>
    fieldAt r.seq 16 ||| fieldAt r.stage 4 ||| fieldAt (fatalCauseCode r.cause) 1 ||| bitAt true 0

/-- The index of a leg (R4). -/
def legIndex : Leg → BitVec 1
  | .leg0 => 0
  | .leg1 => 1

/-- PS_STATE as the host reads it (R48): CATCHUP is PENDING ≠ 0 and HELD is `held ≠ none`
(46_protection_switch.md, head). EXPECTED reads 0 when EXP_VALID = 0, as PSINIT leaves it (R420). -/
def psStateWord (p : Switch) : Word :=
  fieldAt (legIndex p.master) 0 ||| bitAt p.leg0.online 1 ||| bitAt p.leg1.online 2 |||
    bitAt (decide (p.pending ≠ 0)) 3 ||| bitAt p.held.isSome 4 ||| bitAt p.expected.isSome 5 |||
    fieldAt (p.expected.getD 0) 16

/-- The KIND code of an event (R54). -/
def eventKindCode : EventKind → BitVec 8
  | .malformed => 1
  | .ptDrop => 2
  | .seqLoss => 3
  | .profileFatal => 4
  | .lengthFatal => 5
  | .overflowFatal => 6
  | .psGap => 7
  | .psUnrecov => 8
  | .psSwap => 9
  | .psDup => 10
  | .psOverrun => 11
  | .psEvqDrop => 12
  | .psRxMalformed => 13

/-- The STAGE code of an event (R53), by the stage R54 gives its kind: 1 TRANSPORT, 2 SYNC,
3 GEOMETRY, 4 SWITCH. -/
def eventStageCode : EventKind → BitVec 4
  | .malformed => 1
  | .ptDrop => 1
  | .seqLoss => 2
  | .profileFatal => 3
  | .lengthFatal => 3
  | .overflowFatal => 3
  | .psGap => 4
  | .psUnrecov => 4
  | .psSwap => 4
  | .psDup => 4
  | .psOverrun => 4
  | .psEvqDrop => 4
  | .psRxMalformed => 4

/-- EV_INFO as the host reads it (R53). -/
def evInfoWord : Option EventRecord → Word
  | none => 0
  | some e =>
    fieldAt (eventStageCode e.kind) 0 ||| fieldAt (eventKindCode e.kind) 4 |||
      bitAt e.leg.isSome 12 ||| fieldAt ((e.leg.map legIndex).getD 0) 13 |||
      bitAt e.range.isSome 14

/-- EV_SEQ as the host reads it (R53): FIRST at [15:0], LAST at [31:16]; 0 when no range was given. -/
def evSeqWord : Option EventRecord → Word
  | none => 0
  | some e =>
    match e.range with
    | none => 0
    | some (first, last) => last ++ first

/-- SLOT_INFO.STATE (R61). -/
def slotStateCode : SlotState → BitVec 2
  | .free => 0
  | .filling => 1
  | .ready => 2

/-- SLOT_INFO as the host reads it (R61). -/
def slotInfoWord (t : Slot) : Word :=
  fieldAt (slotStateCode t.state) 0 ||| bitAt t.dual 2 ||| bitAt t.demuxed 3 |||
    fieldAt t.profile 8 ||| fieldAt t.gen 16

/-! ## Completing, holding, and the fatal gate -/

/-- What evaluating a command's pseudocode gives: it completes with a status (and, on the ingest
port, the three result bits), it holds with no change (R11), or the model stops. -/
inductive CmdResult where
  | done (s : State) (code : Status) (flags : CmdFlags)
  | hold
  | stop (f : Fault)

/-- An ingest command completes: bits [11:0] of ISTAT are rewritten (R32). -/
def completeIngest (s : State) (code : Status) (flags : CmdFlags) : State :=
  { s with ing := { s.ing with stat := { code, busy := false, flags } } }

/-- A consumer command completes (R85). -/
def completeConsumer (s : State) (code : Status) : State :=
  { s with con := { s.con with stat := { code, busy := false } } }

/-- An ingest command holds: nothing changes but BUSY, which reads 1 (R11). -/
def holdIngest (s : State) : State :=
  { s with ing := { s.ing with stat := { s.ing.stat with busy := true } } }

/-- A consumer command holds (R11). -/
def holdConsumer (s : State) : State :=
  { s with con := { s.con with stat := { s.con.stat with busy := true } } }

/-- A legal ingest command is evaluated from its first step: the fatal gate first (R154, R456), then
its own pseudocode. -/
def runIngest (s : State) (body : State → CmdResult) :
    Host.Outcome State Fault Refusal :=
  if s.fatal.isSome then .next (completeIngest s .fatal {})
  else
    match body s with
    | .done t code flags => .next (completeIngest t code flags)
    | .hold => .next (holdIngest s)
    | .stop f => .fault f

/-- A legal consumer command is evaluated from its first step (R154, R456). A consumer status has no
result bits. -/
def runConsumer (s : State) (body : State → CmdResult) :
    Host.Outcome State Fault Refusal :=
  if s.fatal.isSome then .next (completeConsumer s .fatal)
  else
    match body s with
    | .done t code _ => .next (completeConsumer t code)
    | .hold => .next (holdConsumer s)
    | .stop f => .fault f

end Sys2Proof.Machine
end

