-- ==== Sys2Proof/Machine/Operands.lean ====
section
/-! DEFINITION. The operands of the commands: the buffer space an SP code and an SL number select
(R148), PKT_LEN (R34), and the fields and validity of a token (R150, R151, R380). -/

namespace Sys2Proof.Machine

open Sys2Proof

/-- The space a format-S command names, or none where R148 gives BADARG. SL is ignored for SP 0, 1
and 2 (R140). -/
def spaceOf (c : Config) (sp sl : Nat) : Option Space :=
  match sp with
  | 0 => some .pkt
  | 1 => some .work
  | 2 => some .out
  | 3 => if sl < c.nslots then some (.frame sl) else none
  | 4 => if sl < c.nslots then some (.halfA sl) else none
  | 5 => if sl < c.nslots then some (.halfB sl) else none
  | _ => none

/-- PKT_LEN.LEN, or none where it is past MAX_PKT_BYTES, which is BADARG (R34). -/
def packetLength (s : State) : Option Nat :=
  if s.ing.pktLen.toNat ≤ s.config.maxPktBytes then some s.ing.pktLen.toNat else none

/-- A token's SLOT field (R150). -/
def tokenSlot (t : Word) : Nat := (t.extractLsb' 0 8).toNat

/-- A token's KIND field (R150). -/
def tokenKind (t : Word) : BitVec 2 := t.extractLsb' 8 2

/-- A token's PART field (R150). -/
def tokenPart (t : Word) : BitVec 2 := t.extractLsb' 10 2

/-- A token's GEN field (R150). -/
def tokenGen (t : Word) : BitVec 16 := t.extractLsb' 16 16

/-- The kinds and parts of a token, by their codes (R150). -/
def kindVideo : BitVec 2 := 0
def kindAudio : BitVec 2 := 1
def kindAncillary : BitVec 2 := 2
def partFull : BitVec 2 := 0
def partHalf1 : BitVec 2 := 1
def partHalf2 : BitVec 2 := 2

/-- A token from its fields (R150). -/
def mkToken (slot : Nat) (kind part : BitVec 2) (gen : BitVec 16) : Word :=
  gen ++ (0 : BitVec 4) ++ part ++ kind ++ BitVec.ofNat 8 slot

/-- The buffer type MBNEXT and MBTYPE return: PART at [3:2], KIND at [1:0] (R151). -/
def bufferType (t : Word) : Word := (tokenPart t ++ tokenKind t).setWidth 32

/-- ValidToken (R380). -/
def validToken (s : State) (t : Word) : Bool :=
  match s.slots[tokenSlot t]? with
  | none => false
  | some slot =>
    decide (tokenSlot t < s.config.nslots) && decide (t.extractLsb' 12 4 = 0) &&
      decide (slot.state = .ready) && decide (tokenGen t = slot.gen) &&
      decide (tokenKind t ≠ 3) && decide (tokenPart t ≠ 3) &&
      decide (tokenPart t = partFull ↔ slot.dual = false)

end Sys2Proof.Machine
end

