-- ==== Sys2Proof/Machine/Hbrmt.lean ====
section
/-! DEFINITION. The HBRMT payload header (R142, R240 to R245), HBRMTDEC (R243), the profile resolver
(R251 to R253) and PROFRES (R255). -/

namespace Sys2Proof.Machine

open Sys2Proof

/-- A decoded HBRMT header: every field of R240, in its order, and the two fixed words. `r` is R, the
reference for timestamp; `rsv` and `frsv` are the reserved bits, as received (R38, R142). -/
structure HbrmtHeader where
  ext : BitVec 4
  f : BitVec 1
  vsid : BitVec 3
  frcount : BitVec 8
  r : BitVec 2
  s : BitVec 2
  fec : BitVec 3
  clockFrequency : BitVec 4
  rsv : BitVec 5
  map : BitVec 4
  frm : BitVec 8
  frate : BitVec 8
  sample : BitVec 4
  frsv : BitVec 8
  word0 : Word
  word1 : Word
deriving DecidableEq, Repr

/-- The MAP field of HBRMT word 1 (R142). -/
def hbMap (w1 : Word) : BitVec 4 := w1.extractLsb' 28 4

/-- The FRM field of HBRMT word 1 (R142). -/
def hbFrm (w1 : Word) : BitVec 8 := w1.extractLsb' 20 8

/-- The FRATE field of HBRMT word 1 (R142). -/
def hbFrate (w1 : Word) : BitVec 8 := w1.extractLsb' 12 8

/-- The SAMPLE field of HBRMT word 1 (R142). -/
def hbSample (w1 : Word) : BitVec 4 := w1.extractLsb' 8 4

/-- The header whose fixed words are `w0` and `w1` (R142, R240). -/
def hbrmtOfWords (w0 w1 : Word) : HbrmtHeader where
  ext := w0.extractLsb' 28 4
  f := w0.extractLsb' 27 1
  vsid := w0.extractLsb' 24 3
  frcount := w0.extractLsb' 16 8
  r := w0.extractLsb' 14 2
  s := w0.extractLsb' 12 2
  fec := w0.extractLsb' 9 3
  clockFrequency := w0.extractLsb' 5 4
  rsv := w0.extractLsb' 0 5
  map := hbMap w1
  frm := hbFrm w1
  frate := hbFrate w1
  sample := hbSample w1
  frsv := w1.extractLsb' 0 8
  word0 := w0
  word1 := w1

/-- DecodeHbrmt (R240). Its callers check the length first. -/
def decodeHbrmt (s : State) (sp : Space) (o : Nat) : HbrmtHeader :=
  hbrmtOfWords (be32 s sp o) (be32 s sp (o + 4))

/-- HeaderLength (R143, R241), from 8 to 72. -/
def headerLength (h : HbrmtHeader) : Nat :=
  8 + (if h.clockFrequency ≠ 0 then 4 else 0) + 4 * h.ext.toNat

/-- HBRMTDEC's pseudocode (R243). -/
def hbrmtdecBody (s : State) : CmdResult :=
  match packetLength s with
  | none => .done s .badArg {}
  | some n =>
    if n < 20 then .done s .malformed {}
    else
      let h := decodeHbrmt s .pkt 12
      let hl := headerLength h
      let ts := if h.clockFrequency ≠ 0 ∧ 24 ≤ n then be32 s .pkt 20 else 0
      let hdr :=
        { s.hdr with hbW0 := h.word0, hbW1 := h.word1, hbTs := ts, hbHdrLen := BitVec.ofNat 16 hl }
      if n < 12 + hl then .done { s with hdr := { hdr with hbPayLen := 0 } } .malformed {}
      else
        .done
          { s with
            hdr := { hdr with hbPayLen := BitVec.ofNat 16 (n - 12 - hl) }
            ing := { s.ing with ir0 := h.frcount.setWidth 32 } }
          .ok {}

/-- HBRMTDEC (R243). -/
def execHbrmtdec (s : State) : Host.Outcome State Fault Refusal := runIngest s hbrmtdecBody

/-- Which lookup failed (R39, R251). -/
inductive ResolveStage where
  | frame
  | frate
  | sample
  | profile
deriving DecidableEq, Repr

/-- PROF_RES.STAGE and FATAL.STAGE (R39, R47). -/
def stageCode : ResolveStage → BitVec 3
  | .frame => 1
  | .frate => 2
  | .sample => 3
  | .profile => 4

/-- Interlaced SAMPLE folding (R252). -/
def foldSample (interlaced : Bool) (idx : BitVec 4) : BitVec 4 :=
  if interlaced = true ∧ (idx = 5 ∨ idx = 6 ∨ idx = 7) then idx - 5 else idx

/-- The first record of the table with a key, and its index; at most one record has it (R253). -/
def findProfile (table : List Profile) (key : ProfileKey) (from_ : Nat) : Option (Nat × Profile) :=
  match table with
  | [] => none
  | p :: rest => if p.key = key then some (from_, p) else findProfile rest key (from_ + 1)

/-- ResolveFromHbrmt (R251). -/
def resolveFromHbrmt (c : Config) (map : BitVec 4) (frm frate : BitVec 8) (sample : BitVec 4) :
    Except ResolveStage (Nat × Profile) :=
  match c.frame frm with
  | none => .error .frame
  | some g =>
    match c.frate frate with
    | none => .error .frate
    | some rate =>
      match c.sample (foldSample g.interlaced sample) with
      | none => .error .sample
      | some depth =>
        match findProfile c.profileTable
            { activeWidth := g.activePixels, activeHeight := g.activeLines
              scanlinesNb := g.scanlines, frameRate := rate, bitDepth := depth
              mapCode := map, interlaced := g.interlaced } 0 with
        | none => .error .profile
        | some found => .ok found

/-- PROFRES's pseudocode (R255). -/
def profresBody (s : State) : CmdResult :=
  let w1 := s.hdr.hbW1
  match resolveFromHbrmt s.config (hbMap w1) (hbFrm w1) (hbFrate w1) (hbSample w1) with
  | .ok (k, p) =>
    .done
      { s with
        hdr := { s.hdr with profIndex := BitVec.ofNat 8 k, profStage := 0 }
        ing :=
          { s.ing with
            ir0 := BitVec.ofNat 32 k, ir1 := BitVec.ofNat 32 p.transportFrameSizeBytes } }
      .ok {}
  | .error st =>
    .done
      { s with
        hdr := { s.hdr with profIndex := 0xFF, profStage := stageCode st }
        ing := { s.ing with ir0 := 0xFF, ir1 := 0 } }
      .notDefined {}

/-- PROFRES (R255). -/
def execProfres (s : State) : Host.Outcome State Fault Refusal := runIngest s profresBody

end Sys2Proof.Machine
end

