-- ==== Sys2Proof/Machine/Rtp.lean ====
section
/-! DEFINITION. The RTP fixed header (R141, R220, R221) and RTPPARSE (R222). -/

namespace Sys2Proof.Machine

open Sys2Proof

/-- A parsed RTP header (R220). -/
structure RtpView where
  version : BitVec 2
  padding : BitVec 1
  extension : BitVec 1
  csrcCount : BitVec 4
  marker : BitVec 1
  payloadType : BitVec 7
  seq : Seq
  timestamp : Word
  ssrc : Word
deriving DecidableEq, Repr

/-- ParseRtp (R220) of the n-byte packet at offset 0 of a space; none is `Malformed`. -/
def parseRtp (s : State) (sp : Space) (n : Nat) : Option RtpView :=
  if n < 12 then none
  else
    let b0 := s.spaceByte sp 0
    let b1 := s.spaceByte sp 1
    some
      { version := b0.extractLsb' 6 2
        padding := b0.extractLsb' 5 1
        extension := b0.extractLsb' 4 1
        csrcCount := b0.extractLsb' 0 4
        marker := b1.extractLsb' 7 1
        payloadType := b1.extractLsb' 0 7
        seq := be16 s sp 2
        timestamp := be32 s sp 4
        ssrc := be32 s sp 8 }

/-- isEndOfFrame (R221). -/
def isEndOfFrame (v : RtpView) : Bool := decide (v.marker = 1)

/-- RTPPARSE's pseudocode (R222). -/
def rtpparseBody (s : State) : CmdResult :=
  match packetLength s with
  | none => .done s .badArg {}
  | some n =>
    match parseRtp s .pkt n with
    | none => .done s .malformed {}
    | some v =>
      .done
        { s with
          hdr := { s.hdr with rtpHdr := be32 s .pkt 0, rtpTs := v.timestamp, rtpSsrc := v.ssrc }
          ing := { s.ing with ir0 := v.marker.setWidth 32 } }
        .ok {}

/-- RTPPARSE (R222). -/
def execRtpparse (s : State) : Host.Outcome State Fault Refusal := runIngest s rtpparseBody

end Sys2Proof.Machine
end

