-- ==== Sys2Proof/Machine/Assembler.lean ====
section
/-! DEFINITION. The frame assembler: FAADD, step by step (R311 to R320), FARESET (R330) and FAABORT
(R331). -/

namespace Sys2Proof.Machine

open Sys2Proof

/-! ## FAADD -/

/-- What FAADD knows of a packet that passed the transport checks (R312). -/
structure PacketHead where
  rtp : RtpView
  hb : HbrmtHeader
  length : Nat
  headerLen : Nat
deriving DecidableEq, Repr

/-- p, the HBRMT payload length of the packet (R242, R318). -/
def payloadLen (h : PacketHead) : Nat := h.length - 12 - h.headerLen

/-- The outcome of FAADD's transport checks (R312). -/
inductive Transport where
  | skip (s : State) (code : Status)
  | pass (h : PacketHead)

/-- A packet skipped as malformed is counted and recorded, and changes no assembler state (R312). -/
def skipMalformed (s : State) (range : Option (Seq × Seq)) : Transport :=
  .skip
    (recordEvent { s with cnt := { s.cnt with malformed := s.cnt.malformed + 1 } } .malformed none
      range)
    .malformed

/-- FAADD step 1: the transport checks, in their order (R312). -/
def transportCheck (s : State) (n : Nat) : Transport :=
  match parseRtp s .pkt n with
  | none => skipMalformed s none
  | some rtp =>
    if rtp.payloadType ≠ Config.payloadType then
      .skip
        (recordEvent { s with cnt := { s.cnt with ptDrop := s.cnt.ptDrop + 1 } } .ptDrop none
          (some (rtp.seq, rtp.seq)))
        .ptDrop
    else if n < 20 then skipMalformed s (some (rtp.seq, rtp.seq))
    else
      let hb := decodeHbrmt s .pkt 12
      if n < 12 + headerLength hb then skipMalformed s (some (rtp.seq, rtp.seq))
      else .pass { rtp, hb, length := n, headerLen := headerLength hb }

/-- The lowest-numbered FREE slot (R313), counted from `from_`. -/
def firstFree (slots : List Slot) (from_ : Nat) : Option Nat :=
  match slots with
  | [] => none
  | t :: rest => if t.state = .free then some from_ else firstFree rest (from_ + 1)

/-- FAADD step 2: the slot the assembler owns, acquired if it owns none; none is a hold (R313). -/
def acquireSlot (s : State) : Option (State × Nat) :=
  match s.fa.cur with
  | some c => some (s, c.toNat)
  | none =>
    match firstFree s.slots 0 with
    | none => none
    | some k =>
      some
        ({ s with
            slots := modifySlot s.slots k fun t => { t with state := .filling }
            fa := { s.fa with cur := some (BitVec.ofNat 8 k) } }, k)

/-- FAADD step 3: the next frame starts after Complete (R314). -/
def startNextFrame (s : State) : State :=
  if s.fa.state = .complete then
    { s with fa := { s.fa with state := .collecting, acc := 0, pktcnt := 0 } }
  else s

/-- The packet is out of sequence (R315). -/
def sequenceLost (s : State) (q : Seq) : Bool := !s.fa.first && decide (q ≠ s.fa.lastSeq + 1)

/-- FAADD step 4: the sequence check (R315). The first LASTSEQ + 1 and SEQ − 1 are modulo 2^16. -/
def sequenceCheck (s : State) (q : Seq) : State :=
  let s1 :=
    if sequenceLost s q then
      let s0 :=
        recordEvent { s with cnt := { s.cnt with seqLoss := s.cnt.seqLoss + 1 } } .seqLoss none
          (some (s.fa.lastSeq + 1, q - 1))
      { s0 with fa := { s0.fa with state := .waitingSync, acc := 0, pktcnt := 0 } }
    else s
  { s1 with fa := { s1.fa with lastSeq := q, first := false } }

/-- FAADD step 5: what a packet does in WaitingSync (R316). -/
def resyncFilter (s : State) (rtp : RtpView) (flags : CmdFlags) : CmdResult :=
  if isEndOfFrame rtp then
    .done { s with fa := { s.fa with state := .collecting, acc := 0, pktcnt := 0 } } .resync flags
  else .done s .discarded flags

/-- FAADD step 6: profile binding (R317); the error is the lookup stage that failed. -/
def bindProfile (s : State) (hb : HbrmtHeader) : Except ResolveStage State :=
  if s.fa.pktcnt = 0 ∧ s.fa.profile = none then
    match resolveFromHbrmt s.config hb.map hb.frm hb.frate hb.sample with
    | .ok (k, _) => .ok { s with fa := { s.fa with profile := some (BitVec.ofNat 8 k) } }
    | .error st => .error st
  else .ok s

/-- A GEOMETRY event, then the Fatal it announces (R317, R318, R319). -/
def geometryFatal (s : State) (kind : EventKind) (cause : FatalCause) (stage : BitVec 3) (q : Seq) :
    State :=
  raiseFatal (recordEvent s kind none (some (q, q))) cause stage q

/-- The three tokens of one part, in their order (R320). -/
def partTokens (slot : Nat) (part : BitVec 2) (gen : BitVec 16) : List Word :=
  [mkToken slot kindVideo part gen, mkToken slot kindAudio part gen,
    mkToken slot kindAncillary part gen]

/-- The tokens of a published frame, in their order (R320). -/
def frameTokens (slot : Nat) (multiplexed : Bool) (gen : BitVec 16) : List Word :=
  if multiplexed then partTokens slot partHalf1 gen ++ partTokens slot partHalf2 gen
  else partTokens slot partFull gen

/-- The generation a slot gets when it is published (R320). -/
def nextGen (s : State) (k : Nat) : BitVec 16 :=
  match s.slots[k]? with
  | some t => t.gen + 1
  | none => 0

/-- Publish (R320): slot `k` becomes READY and its tokens are queued, in one step. -/
def publish (s : State) (k : Nat) (index : BitVec 8) (p : Profile) : State :=
  { s with
    slots := modifySlot s.slots k fun t =>
      { state := .ready, profile := index, padding := s.fa.padding, dual := p.multiplexed
        demuxed := false, gen := t.gen + 1 }
    ready := s.ready ++ frameTokens k p.multiplexed (nextGen s k) }

/-- FAADD step 8: the end of a frame (R319). `plen` is the marker packet's payload length. -/
def endOfFrame (s : State) (k plen : Nat) (q : Seq) (flags : CmdFlags) : CmdResult :=
  match s.fa.profile with
  | none => .stop .noProfile
  | some index =>
    match s.config.profileTable[index.toNat]? with
    | none => .stop .noProfile
    | some p =>
      let t := p.transportFrameSizeBytes
      let acc := s.fa.acc.toNat
      if acc < t ∨ plen ≤ acc - t then
        .done (geometryFatal s .lengthFatal .length 0 q) .fatal flags
      else
        let s1 :=
          { s with
            fa :=
              { s.fa with
                padding := BitVec.ofNat 32 (acc - t)
                frameSize := if s.fa.frameSize = 0 then BitVec.ofNat 32 t else s.fa.frameSize } }
        let s2 := publish s1 k index p
        .done
          { s2 with
            cnt := { s2.cnt with frames := s2.cnt.frames + 1 }
            fa := { s2.fa with state := .complete, cur := none } }
          .complete flags

/-- FAADD step 7, then step 8 on a marker (R318, R319). -/
def appendPayload (s : State) (k : Nat) (h : PacketHead) (flags : CmdFlags) : CmdResult :=
  let plen := payloadLen h
  let q := h.rtp.seq
  if s.config.frameBufBytes < s.fa.acc.toNat + plen then
    .done (geometryFatal s .overflowFatal .overflow 0 q) .fatal flags
  else
    match memRead s .pkt (12 + h.headerLen) plen with
    | none => .stop .outsideSpace
    | some bytes =>
      match memWrite s (.frame k) s.fa.acc.toNat bytes with
      | none => .stop .outsideSpace
      | some s1 =>
        let s2 :=
          { s1 with
            fa :=
              { s1.fa with
                acc := s1.fa.acc + BitVec.ofNat 32 plen
                pktcnt := s1.fa.pktcnt + 1
                lastFrcount := h.hb.frcount } }
        if isEndOfFrame h.rtp then endOfFrame s2 k plen q flags else .done s2 .appended flags

/-- FAADD steps 3 to 8, on a packet that passed step 1, with slot `k` owned (R314 to R319). -/
def collectPacket (s : State) (k : Nat) (h : PacketHead) : CmdResult :=
  let s1 := startNextFrame s
  let flags : CmdFlags := { loss := sequenceLost s1 h.rtp.seq }
  let s2 := sequenceCheck s1 h.rtp.seq
  if s2.fa.state = .waitingSync then resyncFilter s2 h.rtp flags
  else
    match bindProfile s2 h.hb with
    | .error st =>
      .done (geometryFatal s2 .profileFatal .profile (stageCode st) h.rtp.seq) .fatal flags
    | .ok s3 => appendPayload s3 k h flags

/-- FAADD's pseudocode (R311). -/
def faaddBody (s : State) : CmdResult :=
  match packetLength s with
  | none => .done s .badArg {}
  | some n =>
    match transportCheck s n with
    | .skip t code => .done t code {}
    | .pass h =>
      match acquireSlot s with
      | none => .hold
      | some (t, k) => collectPacket t k h

/-- FAADD (R311). -/
def execFaadd (s : State) : Host.Outcome State Fault Refusal := runIngest s faaddBody

/-! ## FARESET and FAABORT -/

/-- FARESET's pseudocode (R330): every field but CUR_SLOT. -/
def faresetBody (s : State) : CmdResult :=
  .done
    { s with
      fa :=
        { state := .collecting, first := true, profile := none, cur := s.fa.cur, lastFrcount := 0
          lastSeq := 0, acc := 0, pktcnt := 0, padding := 0, frameSize := 0 } }
    .ok {}

/-- FARESET (R330). -/
def execFareset (s : State) : Host.Outcome State Fault Refusal := runIngest s faresetBody

/-- AbortFrame (R331). -/
def abortFrame (s : State) : State :=
  { s with fa := { s.fa with state := .waitingSync, acc := 0, pktcnt := 0 } }

/-- FAABORT's pseudocode (R331). -/
def faabortBody (s : State) : CmdResult := .done (abortFrame s) .ok {}

/-- FAABORT (R331). -/
def execFaabort (s : State) : Host.Outcome State Fault Refusal := runIngest s faabortBody

end Sys2Proof.Machine
end

