-- ==== Sys2Proof/Machine/Crc.lean ====
section
/-! DEFINITION. The CRC-18 engine (R280, R281) and CRCCOMP, CRCWORDS and CRCCHECK (R290 to R292). -/

namespace Sys2Proof.Machine

open Sys2Proof

/-- One bit folded into the right-shifting remainder (R280). -/
def crcBit (c : BitVec 18) (b : Bool) : BitVec 18 :=
  if (c.getLsbD 0 ^^ b) = true then (c >>> 1) ^^^ 0x23000 else c >>> 1

/-- One 10-bit word folded, least significant bit first (R280). -/
def crcWord (c : BitVec 18) (w : BitVec 10) : BitVec 18 :=
  (List.range 10).foldl (fun c b => crcBit c (w.getLsbD b)) c

/-- `count` words folded into `c`, from word `i` on, `step` words apart (R280). -/
def crcFold (s : State) (sp : Space) (step : Nat) (count i : Nat) (c : BitVec 18) : BitVec 18 :=
  match count with
  | 0 => c
  | n + 1 => crcFold s sp step n (i + step) (crcWord c (getWord s sp i))

/-- Crc18 (R280). -/
def crc18 (s : State) (sp : Space) (start count step : Nat) : BitVec 18 :=
  crcFold s sp step count start 0

/-- CRC0 of a remainder (R147, R281). -/
def crcTx0 (r : BitVec 18) : BitVec 10 := ~~~(r.extractLsb' 8 1) ++ r.extractLsb' 0 9

/-- CRC1 of a remainder (R147, R281). -/
def crcTx1 (r : BitVec 18) : BitVec 10 := ~~~(r.extractLsb' 17 1) ++ r.extractLsb' 9 9

/-- The last word a fold reads is inside the space; a fold of no words reads none (R290). Exact
arithmetic, no wrap. -/
def crcRangeFits (c : Config) (sp : Space) (start count step : Nat) : Bool :=
  decide (count = 0) || wordFits c sp (start + (count - 1) * step)

/-- CRCCOMP's pseudocode (R290). -/
def crccompBody (sp sl : Nat) (s : State) : CmdResult :=
  match spaceOf s.config sp sl with
  | none => .done s .badArg {}
  | some space =>
    let start := s.ing.ia0.toNat
    let count := s.ing.ia1.toNat
    let step := s.ing.ia2.toNat
    if crcRangeFits s.config space start count step then
      let r := crc18 s space start count step
      .done
        { s with hdr := { s.hdr with crcRem := r }, ing := { s.ing with ir0 := r.setWidth 32 } }
        .ok {}
    else .done s .badArg {}

/-- CRCCOMP (R290). -/
def execCrccomp (sp sl : Nat) (s : State) : Host.Outcome State Fault Refusal :=
  runIngest s (crccompBody sp sl)

/-- CRCWORDS's pseudocode (R291). -/
def crcwordsBody (s : State) : CmdResult :=
  let c0 := crcTx0 s.hdr.crcRem
  let c1 := crcTx1 s.hdr.crcRem
  .done
    { s with
      hdr := { s.hdr with crcWord0 := c0, crcWord1 := c1 }
      ing := { s.ing with ir0 := c0.setWidth 32, ir1 := c1.setWidth 32 } }
    .ok {}

/-- CRCWORDS (R291). -/
def execCrcwords (s : State) : Host.Outcome State Fault Refusal := runIngest s crcwordsBody

/-- The index of the stored CRC1 (R292). -/
def storedCrc1Index (i0 step : Nat) : Nat := i0 + (if step ≠ 0 then step else 1)

/-- CRCCHECK's pseudocode (R292). -/
def crccheckBody (sp sl : Nat) (s : State) : CmdResult :=
  match spaceOf s.config sp sl with
  | none => .done s .badArg {}
  | some space =>
    let start := s.ing.ia0.toNat
    let count := s.ing.ia1.toNat
    let step := s.ing.ia2.toNat
    let i0 := s.ing.ia3.toNat
    let i1 := storedCrc1Index i0 step
    if wordFits s.config space i0 && wordFits s.config space i1 &&
        crcRangeFits s.config space start count step then
      let r := crc18 s space start count step
      let w0 := getWord s space i0
      let w1 := getWord s space i1
      .done
        { s with
          hdr := { s.hdr with crcRem := r, crcWord0 := crcTx0 r, crcWord1 := crcTx1 r }
          ing :=
            { s.ing with
              ir0 := (0 : BitVec 6) ++ w1 ++ (0 : BitVec 6) ++ w0, ir1 := r.setWidth 32 } }
        (if w0 = crcTx0 r ∧ w1 = crcTx1 r then .crcPass else .crcFail) {}
    else .done s .badArg {}

/-- CRCCHECK (R292). -/
def execCrccheck (sp sl : Nat) (s : State) : Host.Outcome State Fault Refusal :=
  runIngest s (crccheckBody sp sl)

end Sys2Proof.Machine
end

