-- ==== Sys2Proof/Machine/MediaBuffer.lean ====
section
/-! DEFINITION. The consumer port's commands: MBNEXT (R370), MBTYPE (R371), MBEXTRACT (R381) with the
lazy dual-link demux (R382) and the video extraction (R384), and MBRELEASE (R386). -/

namespace Sys2Proof.Machine

open Sys2Proof

/-- MBNEXT's pseudocode (R370). -/
def mbnextBody (s : State) : CmdResult :=
  match s.ready with
  | [] => .hold
  | t :: rest =>
    .done { s with ready := rest, con := { s.con with cr0 := t, cr1 := bufferType t } } .ok {}

/-- MBNEXT (R370). -/
def execMbnext (s : State) : Host.Outcome State Fault Refusal := runConsumer s mbnextBody

/-- MBTYPE's pseudocode (R371). -/
def mbtypeBody (s : State) : CmdResult :=
  if validToken s s.con.ca0 then
    .done { s with con := { s.con with cr1 := bufferType s.con.ca0 } } .ok {}
  else .done s .badToken {}

/-- MBTYPE (R371). -/
def execMbtype (s : State) : Host.Outcome State Fault Refusal := runConsumer s mbtypeBody

/-- MBRELEASE's pseudocode (R386). -/
def mbreleaseBody (s : State) : CmdResult :=
  let k := s.con.ca0.toNat
  match s.slots[k]? with
  | none => .done s .badSlot {}
  | some t =>
    if k < s.config.nslots ∧ t.state = .ready then
      .done
        { s with
          slots := modifySlot s.slots k fun t => { t with state := .free }
          ready := s.ready.filter fun t => decide (tokenSlot t ≠ k) }
        .ok {}
    else .done s .badSlot {}

/-- MBRELEASE (R386). -/
def execMbrelease (s : State) : Host.Outcome State Fault Refusal := runConsumer s mbreleaseBody

/-! ## The demux -/

/-- Which words of a 4-word group go to half A: the first and the second (R382). -/
def groupA (pattern : DemuxPattern) : Nat × Nat :=
  match pattern with
  | .abab => (0, 2)
  | .aabb => (0, 1)

/-- Which words of a 4-word group go to half B: the first and the second (R382). -/
def groupB (pattern : DemuxPattern) : Nat × Nat :=
  match pattern with
  | .abab => (1, 3)
  | .aabb => (2, 3)

/-- The four words of a group stored: two in half A, two in half B (R382). -/
def storeGroup (s : State) (k g : Nat) (a0 a1 b0 b1 : BitVec 10) : State :=
  setWord
    (setWord (setWord (setWord s (.halfA k) (2 * g) a0) (.halfA k) (2 * g + 1) a1) (.halfB k)
      (2 * g) b0)
    (.halfB k) (2 * g + 1) b1

/-- Word `j` of the 5-byte group `g` of FRAME[k] (R382). -/
def groupWord (s : State) (k g j : Nat) : BitVec 10 := getWord s (.frame k) (4 * g + j)

/-- One 5-byte group `g` of FRAME[k], split into the halves (R382). -/
def demuxGroup (s : State) (k g : Nat) : State :=
  let a := groupA s.config.demuxPattern
  let b := groupB s.config.demuxPattern
  storeGroup s k g (groupWord s k g a.1) (groupWord s k g a.2) (groupWord s k g b.1)
    (groupWord s k g b.2)

/-- The first `count` groups, in rising order (R382). -/
def demuxGroups (s : State) (k count : Nat) : State :=
  match count with
  | 0 => s
  | g + 1 => demuxGroup (demuxGroups s k g) k g

/-- Demux(k) (R382), defined where the groups lie inside FRAME[k] and the halves inside HALFA[k] and
HALFB[k] (R100); `demuxed[k]` is then set (R381). -/
def demux (s : State) (k : Nat) (p : Profile) : Option State :=
  let t := p.transportFrameSizeBytes
  if t ≤ (Space.frame k).size s.config ∧ t ≤ 2 * (Space.halfA k).size s.config then
    let s1 := demuxGroups s k (t / 5)
    some { s1 with slots := modifySlot s1.slots k fun t => { t with demuxed := true } }
  else none

/-- The demux a token's extraction triggers: the first extraction of a Half token (R381, R382). -/
def demuxFor (s : State) (t : Word) (slot : Slot) (p : Profile) : Option State :=
  if tokenPart t ≠ partFull ∧ slot.demuxed = false then demux s (tokenSlot t) p else some s

/-! ## Extraction -/

/-- The buffer a valid token's picture is read from (R381). -/
def tokenSpace (t : Word) : Space :=
  if tokenPart t = partFull then .frame (tokenSlot t)
  else if tokenPart t = partHalf1 then .halfA (tokenSlot t)
  else .halfB (tokenSlot t)

/-- The bytes of the active picture, line by line (R384), where every line is inside the space. -/
def picture (s : State) (sp : Space) (p : Profile) (j count : Nat) : Option (List Byte) :=
  match count with
  | 0 => some []
  | n + 1 =>
    match memRead s sp (p.line s.config.fieldPhase j * p.scanlineSizeBytes + p.xOffsetBytes)
        p.activeWidthBytes with
    | none => none
    | some line =>
      match picture s sp p (j + 1) n with
      | none => none
      | some rest => some (line ++ rest)

/-- CR0 written, with the status of an extraction that writes nothing to OUT (R381). -/
def extractNothing (s : State) (code : Status) : CmdResult :=
  .done { s with con := { s.con with cr0 := 0 } } code {}

/-- The video extraction (R381, R384): the whole picture to OUT, or TOOSMALL with OUT unchanged. -/
def extractVideo (s : State) (t : Word) (p : Profile) : CmdResult :=
  let need := p.activeHeight * p.activeWidthBytes
  if s.con.ca1.toNat < need ∨ s.config.outBytes < need then extractNothing s .tooSmall
  else
    match picture s (tokenSpace t) p 0 p.activeHeight with
    | none => .stop .outsideSpace
    | some bytes =>
      match memWrite s .out 0 bytes with
      | none => .stop .outsideSpace
      | some s1 => .done { s1 with con := { s1.con with cr0 := BitVec.ofNat 32 need } } .ok {}

/-- MBEXTRACT's pseudocode (R381). Audio and Ancillary extract nothing (R383). -/
def mbextractBody (s : State) : CmdResult :=
  let t := s.con.ca0
  if validToken s t then
    match s.slots[tokenSlot t]? with
    | none => extractNothing s .badToken
    | some slot =>
      match s.config.profileTable[slot.profile.toNat]? with
      | none => .stop .noProfile
      | some p =>
        match demuxFor s t slot p with
        | none => .stop .outsideSpace
        | some s1 =>
          if tokenKind t ≠ kindVideo then extractNothing s1 .unsupported
          else extractVideo s1 t p
  else extractNothing s .badToken

/-- MBEXTRACT (R381). -/
def execMbextract (s : State) : Host.Outcome State Fault Refusal := runConsumer s mbextractBody

end Sys2Proof.Machine
end

