-- ==== Sys2Proof/Machine/Switch.lean ====
section
/-! DEFINITION. The seamless protection switch: arrivals (R401, R402), PSREAD (R409 to R416) and PSINIT
(R420). -/

namespace Sys2Proof.Machine

open Sys2Proof

/-- The other leg: SEC = 1 − MASTER (46_protection_switch.md, head). -/
def otherLeg : Leg → Leg
  | .leg0 => .leg1
  | .leg1 => .leg0

/-- The state of a leg. -/
def legState (p : Switch) : Leg → LegState
  | .leg0 => p.leg0
  | .leg1 => p.leg1

/-- The switch with the state of a leg replaced. -/
def setLegState (p : Switch) (l : Leg) (x : LegState) : Switch :=
  match l with
  | .leg0 => { p with leg0 := x }
  | .leg1 => { p with leg1 := x }

/-! ## Arrivals -/

/-- The sequence number of an RTP packet: bytes 2 and 3, big-endian (R401). -/
def packetSeq (bytes : List Byte) : Seq := bytes.getD 2 0 ++ bytes.getD 3 0

/-- A packet stored in the ring entry of its sequence number (R402). -/
def ringStore (c : Config) (ring : List (Option Packet)) (pkt : Packet) : List (Option Packet) :=
  ring.set (pkt.seq.toNat % c.legCapacity) (some pkt)

/-- Lookup(l, q) (R402); none is `miss`. -/
def lookup (s : State) (l : Leg) (q : Seq) : Option Packet :=
  match (legState s.ps l).ring[q.toNat % s.config.legCapacity]? with
  | some (some pkt) => if pkt.seq = q then some pkt else none
  | _ => none

/-- Arrival(l, p, n, t) (R401). While the block is fatal it has no effect at all (R456). -/
def arrival (s : State) (l : Leg) (bytes : List Byte) (t : Time) : State :=
  if s.fatal.isSome then s
  else if bytes.length < 12 ∨ s.config.maxPktBytes < bytes.length then
    recordEvent { s with cnt := { s.cnt with psRxMalformed := s.cnt.psRxMalformed + 1 } }
      .psRxMalformed (some l) none
  else
    let q := packetSeq bytes
    if s.config.evqDepth ≤ s.ps.evq.length then
      recordEvent { s with cnt := { s.cnt with psEvqDrop := s.cnt.psEvqDrop + 1 } }
        .psEvqDrop (some l) (some (q, q))
    else
      let leg := legState s.ps l
      let ps := setLegState s.ps l { leg with ring := ringStore s.config leg.ring { seq := q, bytes } }
      { s with ps := { ps with evq := s.ps.evq ++ [{ leg := l, seq := q, time := t }] } }

/-! ## PSREAD -/

/-- Deliver(l, e) (R413): the packet goes to PKT, and its length, sequence and leg to PKT_LEN, IR0
and IR1. -/
def deliver (s : State) (l : Leg) (pkt : Packet) : Option State :=
  match memWrite s .pkt 0 pkt.bytes with
  | none => none
  | some s1 =>
    some
      { s1 with
        ing :=
          { s1.ing with
            pktLen := BitVec.ofNat 16 pkt.bytes.length
            ir0 := pkt.seq.setWidth 32
            ir1 := (legIndex l).setWidth 32 } }

/-- Whether a leg is Online at time t (R414): it has had an event popped, at most PS_THRESH ticks
before t, modulo 2^32. -/
def isOnline (p : Switch) (x : LegState) (t : Time) : Bool :=
  match x.lastArrival with
  | none => false
  | some a => decide (t - a ≤ p.thresh)

/-- The first part of Liveness (R414): the popped leg refreshed, both legs' flags recomputed. -/
def refreshLegs (p : Switch) (l : Leg) (t : Time) : Switch :=
  let p1 := setLegState p l { legState p l with lastArrival := some t }
  { p1 with
    leg0 := { p1.leg0 with online := isOnline p1 p1.leg0 t }
    leg1 := { p1.leg1 with online := isOnline p1 p1.leg1 t } }

/-- Liveness(l, t) (R414): the legs refreshed, and the roles swapped if the Master is Offline. The
Bool is ISTAT.SWAP. -/
def liveness (s : State) (l : Leg) (t : Time) : State × Bool :=
  let p := refreshLegs s.ps l t
  if (legState p p.master).online then ({ s with ps := p }, false)
  else
    (recordEvent
      { s with
        ps := { p with master := otherLeg p.master }
        cnt := { s.cnt with psSwap := s.cnt.psSwap + 1 } }
      .psSwap (some p.master) none, true)

/-- Overrun(l, q) (R415). -/
def overrun (s : State) (l : Leg) (q : Seq) : State :=
  recordEvent { s with cnt := { s.cnt with psOverrun := s.cnt.psOverrun + 1 } } .psOverrun (some l)
    (some (q, q))

/-- A delivery that sets the expected sequence (R410, R411, R416). -/
def deliverExpecting (s : State) (l : Leg) (pkt : Packet) (next : Seq) (flags : CmdFlags) :
    CmdResult :=
  match deliver s l pkt with
  | none => .stop .outsideSpace
  | some s1 => .done { s1 with ps := { s1.ps with expected := some next } } .delivered flags

/-- A master packet behind the expected sequence (R416). -/
def dropDuplicate (s : State) (l : Leg) (q : Seq) : State :=
  recordEvent { s with cnt := { s.cnt with psDup := s.cnt.psDup + 1 } } .psDup (some l)
    (some (q, q))

/-- A master packet ahead of the expected sequence `e`: the gap is pending and the packet held
(R416). -/
def holdGap (s : State) (l : Leg) (e q : Seq) (pkt : Packet) : State :=
  let s1 :=
    recordEvent { s with cnt := { s.cnt with psGap := s.cnt.psGap + 1 } } .psGap (some l)
      (some (e, q - 1))
  { s1 with
    ps :=
      { s1.ps with
        pending := q - e
        held := some { packet := { seq := q, bytes := pkt.bytes }, leg := l }
        heldSeq := q } }

/-- Classify(l, q, e) (R416). -/
def classify (s : State) (l : Leg) (q : Seq) (pkt : Packet) (flags : CmdFlags) : CmdResult :=
  match s.ps.expected with
  | none => deliverExpecting s l pkt (q + 1) flags
  | some e =>
    if q - e = 0 then deliverExpecting s l pkt (q + 1) flags
    else if 2 ^ 15 ≤ (q - e).toNat then .done (dropDuplicate s l q) .duplicate flags
    else .done (holdGap s l e q pkt) .packetLost flags

/-- CatchUp() (R411). -/
def catchUp (s : State) : CmdResult :=
  match s.ps.expected with
  | none => .stop .noHeldPacket
  | some e =>
    let sec := otherLeg s.ps.master
    match lookup s sec e with
    | some pkt =>
      match deliver s sec pkt with
      | none => .stop .outsideSpace
      | some s1 =>
        .done
          { s1 with
            cnt := { s1.cnt with psRepaired := s1.cnt.psRepaired + 1 }
            ps := { s1.ps with expected := some (e + 1), pending := s1.ps.pending - 1 } }
          .delivered { repaired := true }
    | none =>
      match s.ps.held with
      | none => .stop .noHeldPacket
      | some h =>
        let s1 :=
          abortFrame
            (recordEvent { s with cnt := { s.cnt with psUnrecov := s.cnt.psUnrecov + 1 } }
              .psUnrecov (some sec) (some (e, h.packet.seq - 1)))
        .done { s1 with ps := { s1.ps with pending := 0, expected := some h.packet.seq } }
          .unrecoverable {}

/-- DeliverHeld() (R410). -/
def deliverHeld (s : State) (h : HeldPacket) : CmdResult :=
  deliverExpecting { s with ps := { s.ps with held := none } } h.leg h.packet (h.packet.seq + 1) {}

/-- The event popped by PSREAD, once Liveness has run (R409, R415). -/
def handleEvent (s : State) (ev : ArrivalEvent) (flags : CmdFlags) : CmdResult :=
  if ev.leg ≠ s.ps.master then .done s .noData flags
  else
    match lookup s ev.leg ev.seq with
    | none => .done (overrun s ev.leg ev.seq) .overrun flags
    | some pkt => classify s ev.leg ev.seq pkt flags

/-- PSREAD's pseudocode (R409): catch-up, then the held packet, then one event, or a hold (R412). -/
def psreadBody (s : State) : CmdResult :=
  if s.ps.pending ≠ 0 then catchUp s
  else
    match s.ps.held with
    | some h => deliverHeld s h
    | none =>
      match s.ps.evq with
      | [] => .hold
      | ev :: rest =>
        let r := liveness { s with ps := { s.ps with evq := rest } } ev.leg ev.time
        handleEvent r.1 ev { swap := r.2 }

/-- PSREAD (R409). -/
def execPsread (s : State) : Host.Outcome State Fault Refusal := runIngest s psreadBody

/-! ## PSINIT -/

/-- PSINIT's pseudocode (R420): PS_THRESH, the counters, the event record and the assembler stay. -/
def psinitBody (s : State) : CmdResult :=
  .done
    { s with
      ps :=
        { master := .leg0
          leg0 := LegState.initial s.config, leg1 := LegState.initial s.config
          expected := none, pending := 0, held := none, heldSeq := 0, evq := []
          thresh := s.ps.thresh } }
    .ok {}

/-- PSINIT (R420). -/
def execPsinit (s : State) : Host.Outcome State Fault Refusal := runIngest s psinitBody

end Sys2Proof.Machine
end

