-- ==== Sys2Proof/Machine/Word10.lean ====
section
/-! DEFINITION. The 10-bit word commands W10GET and W10SET (R210, R211). -/

namespace Sys2Proof.Machine

open Sys2Proof

/-- W10GET's pseudocode (R210). -/
def w10getBody (sp sl : Nat) (s : State) : CmdResult :=
  match spaceOf s.config sp sl with
  | none => .done s .badArg {}
  | some space =>
    let i := s.ing.ia0.toNat
    if wordFits s.config space i then
      .done { s with ing := { s.ing with ir0 := (getWord s space i).setWidth 32 } } .ok {}
    else .done s .badArg {}

/-- W10GET (R210). -/
def execW10get (sp sl : Nat) (s : State) : Host.Outcome State Fault Refusal :=
  runIngest s (w10getBody sp sl)

/-- The spaces W10SET may write (R211). -/
def w10Writable : Space → Bool
  | .pkt => true
  | .work => true
  | .out => false
  | .frame _ => false
  | .halfA _ => false
  | .halfB _ => false

/-- W10SET's pseudocode (R211): the space, the value and the index are checked in that order. -/
def w10setBody (sp sl : Nat) (s : State) : CmdResult :=
  match spaceOf s.config sp sl with
  | none => .done s .badArg {}
  | some space =>
    let i := s.ing.ia0.toNat
    let v := s.ing.ia1
    if w10Writable space = false then .done s .badArg {}
    else if 1023 < v.toNat then .done s .badArg {}
    else if wordFits s.config space i then .done (setWord s space i (v.setWidth 10)) .ok {}
    else .done s .badArg {}

/-- W10SET (R211). -/
def execW10set (sp sl : Nat) (s : State) : Host.Outcome State Fault Refusal :=
  runIngest s (w10setBody sp sl)

end Sys2Proof.Machine
end

