-- ==== Sys2Proof/Machine/Dispatch.lean ====
section
/-! DEFINITION. The meaning of every command (R152): a legal command evaluated on its port. -/

namespace Sys2Proof.Machine

open Sys2Proof

def exec (i : Instr) (s : State) : Host.Outcome State Fault Refusal :=
  match i with
  | .w10get sp sl => Sys2Proof.Machine.execW10get sp sl s
  | .w10set sp sl => Sys2Proof.Machine.execW10set sp sl s
  | .rtpparse => Sys2Proof.Machine.execRtpparse s
  | .hbrmtdec => Sys2Proof.Machine.execHbrmtdec s
  | .profres => Sys2Proof.Machine.execProfres s
  | .crccomp sp sl => Sys2Proof.Machine.execCrccomp sp sl s
  | .crcwords => Sys2Proof.Machine.execCrcwords s
  | .crccheck sp sl => Sys2Proof.Machine.execCrccheck sp sl s
  | .fareset => Sys2Proof.Machine.execFareset s
  | .faadd => Sys2Proof.Machine.execFaadd s
  | .faabort => Sys2Proof.Machine.execFaabort s
  | .psinit => Sys2Proof.Machine.execPsinit s
  | .psread => Sys2Proof.Machine.execPsread s
  | .mbnext => Sys2Proof.Machine.execMbnext s
  | .mbtype => Sys2Proof.Machine.execMbtype s
  | .mbextract => Sys2Proof.Machine.execMbextract s
  | .mbrelease => Sys2Proof.Machine.execMbrelease s

end Sys2Proof.Machine
end

