-- ==== Sys2Proof/Machine/Registers.lean ====
section
/-! DEFINITION. The register map of 10_state.md and the value a host read of each register gives, and
the host's writes to the registers that only store (R90, R101). -/

namespace Sys2Proof.Machine

open Sys2Proof

/-- A register of 10_state.md. SLOT_INFO and SLOT_PAD carry their slot. -/
inductive Reg where
  | icmd | istat | pktLen
  | ia0 | ia1 | ia2 | ia3 | ir0 | ir1
  | psThresh
  | rtpHdr | rtpTs | rtpSsrc
  | hbW0 | hbW1 | hbTs | hbLen
  | profRes
  | crcRem | crcWords
  | faState | faLastseq | faAcc | faPktcnt | faPadding | faFramesize
  | fatal
  | psState | psPending | psEvqCount | psHeldSeq
  | cntMalformed | cntPtDrop | cntSeqLoss | cntFrames
  | cntPsGap | cntPsRepaired | cntPsUnrecov | cntPsSwap | cntPsDup | cntPsOverrun
  | cntPsEvqDrop | cntPsRxMalformed
  | evCount | evInfo | evSeq
  | ccmd | cstat | ca0 | ca1 | cr0 | cr1 | mbQcount
  | slotInfo (slot : Nat)
  | slotPad (slot : Nat)
deriving DecidableEq, Repr

/-- The offsets of the registers (10_state.md, sections 2 to 7). -/
def registerMap : List (Nat × Reg) :=
  [ (0x000, .icmd), (0x004, .istat), (0x008, .pktLen),
    (0x010, .ia0), (0x014, .ia1), (0x018, .ia2), (0x01C, .ia3), (0x020, .ir0), (0x024, .ir1),
    (0x030, .psThresh),
    (0x040, .rtpHdr), (0x044, .rtpTs), (0x048, .rtpSsrc),
    (0x050, .hbW0), (0x054, .hbW1), (0x058, .hbTs), (0x05C, .hbLen),
    (0x060, .profRes),
    (0x070, .crcRem), (0x074, .crcWords) ] ++
  [ (0x080, .faState), (0x084, .faLastseq), (0x088, .faAcc), (0x08C, .faPktcnt),
    (0x090, .faPadding), (0x094, .faFramesize),
    (0x098, .fatal),
    (0x0A0, .psState), (0x0A4, .psPending), (0x0A8, .psEvqCount), (0x0AC, .psHeldSeq) ] ++
  [ (0x0C0, .cntMalformed), (0x0C4, .cntPtDrop), (0x0C8, .cntSeqLoss), (0x0CC, .cntFrames),
    (0x0D0, .cntPsGap), (0x0D4, .cntPsRepaired), (0x0D8, .cntPsUnrecov), (0x0DC, .cntPsSwap),
    (0x0E0, .cntPsDup), (0x0E4, .cntPsOverrun), (0x0E8, .cntPsEvqDrop),
    (0x0EC, .cntPsRxMalformed),
    (0x0F0, .evCount), (0x0F4, .evInfo), (0x0F8, .evSeq) ] ++
  [ (0x200, .ccmd), (0x204, .cstat), (0x210, .ca0), (0x214, .ca1), (0x220, .cr0), (0x224, .cr1),
    (0x228, .mbQcount) ]

/-- SLOT_INFO[s] at 0x300 + 8·s and SLOT_PAD[s] at 0x304 + 8·s, for the slots there are (R61, R62). -/
def slotRegister (c : Config) (off : Nat) : Option Reg :=
  let k := (off - 0x300) / 8
  if 0x300 ≤ off ∧ k < c.nslots then
    if (off - 0x300) % 8 = 0 then some (.slotInfo k)
    else if (off - 0x300) % 8 = 4 then some (.slotPad k)
    else none
  else none

/-- The register at an offset of the register window, or none where no register is (R102). -/
def registerAt (c : Config) (off : Nat) : Option Reg :=
  match registerMap.lookup off with
  | some r => some r
  | none => slotRegister c off

/-- The word a host read of a register gives (10_state.md). PS_EVQ_COUNT reads the number of queued events
modulo 2^32: 00_scope.md §4 gives EVQ_DEPTH no upper bound, and R50 does not say what the register reads
with 2^32 entries or more (DESIGN CHOICE, assumption 22). MB_QCOUNT needs no such choice: R63 bounds the
ready queue by 6·NSLOTS. -/
def readRegister (s : State) : Reg → Word
  | .icmd => s.ing.cmd
  | .istat => istatWord s.ing.stat
  | .pktLen => s.ing.pktLen.setWidth 32
  | .ia0 => s.ing.ia0
  | .ia1 => s.ing.ia1
  | .ia2 => s.ing.ia2
  | .ia3 => s.ing.ia3
  | .ir0 => s.ing.ir0
  | .ir1 => s.ing.ir1
  | .psThresh => s.ps.thresh
  | .rtpHdr => s.hdr.rtpHdr
  | .rtpTs => s.hdr.rtpTs
  | .rtpSsrc => s.hdr.rtpSsrc
  | .hbW0 => s.hdr.hbW0
  | .hbW1 => s.hdr.hbW1
  | .hbTs => s.hdr.hbTs
  | .hbLen => s.hdr.hbPayLen ++ s.hdr.hbHdrLen
  | .profRes => fieldAt s.hdr.profIndex 0 ||| fieldAt s.hdr.profStage 8
  | .crcRem => s.hdr.crcRem.setWidth 32
  | .crcWords => fieldAt s.hdr.crcWord0 0 ||| fieldAt s.hdr.crcWord1 16
  | .faState => faStateWord s.fa
  | .faLastseq => s.fa.lastSeq.setWidth 32
  | .faAcc => s.fa.acc
  | .faPktcnt => s.fa.pktcnt
  | .faPadding => s.fa.padding
  | .faFramesize => s.fa.frameSize
  | .fatal => fatalWord s.fatal
  | .psState => psStateWord s.ps
  | .psPending => s.ps.pending.setWidth 32
  | .psEvqCount => BitVec.ofNat 32 s.ps.evq.length
  | .psHeldSeq => s.ps.heldSeq.setWidth 32
  | .cntMalformed => s.cnt.malformed
  | .cntPtDrop => s.cnt.ptDrop
  | .cntSeqLoss => s.cnt.seqLoss
  | .cntFrames => s.cnt.frames
  | .cntPsGap => s.cnt.psGap
  | .cntPsRepaired => s.cnt.psRepaired
  | .cntPsUnrecov => s.cnt.psUnrecov
  | .cntPsSwap => s.cnt.psSwap
  | .cntPsDup => s.cnt.psDup
  | .cntPsOverrun => s.cnt.psOverrun
  | .cntPsEvqDrop => s.cnt.psEvqDrop
  | .cntPsRxMalformed => s.cnt.psRxMalformed
  | .evCount => s.ev.count
  | .evInfo => evInfoWord s.ev.last
  | .evSeq => evSeqWord s.ev.last
  | .ccmd => s.con.cmd
  | .cstat => cstatWord s.con.stat
  | .ca0 => s.con.ca0
  | .ca1 => s.con.ca1
  | .cr0 => s.con.cr0
  | .cr1 => s.con.cr1
  | .mbQcount => BitVec.ofNat 32 s.ready.length
  | .slotInfo k => (s.slots[k]?.map slotInfoWord).getD 0
  | .slotPad k => (s.slots[k]?.map Slot.padding).getD 0

/-- A host write to a register that only stores: an RW register takes the value, its reserved bits
dropped, and a write to an R register is ignored (R34, R35, R36, R87, R90). Writes to ICMD and CCMD
issue a command instead (Machine/Issue.lean). -/
def storeRegister (s : State) (r : Reg) (v : Word) : State :=
  match r with
  | .pktLen => { s with ing := { s.ing with pktLen := v.setWidth 16 } }
  | .ia0 => { s with ing := { s.ing with ia0 := v } }
  | .ia1 => { s with ing := { s.ing with ia1 := v } }
  | .ia2 => { s with ing := { s.ing with ia2 := v } }
  | .ia3 => { s with ing := { s.ing with ia3 := v } }
  | .psThresh => { s with ps := { s.ps with thresh := v } }
  | .ca0 => { s with con := { s.con with ca0 := v } }
  | .ca1 => { s with con := { s.con with ca1 := v } }
  | _ => s

end Sys2Proof.Machine
end

