-- ==== Sys2Proof/Machine/HostBus.lean ====
section
/-! DEFINITION. The host's address map (R101 to R104, R108): where an address leads, reads, and writes
to the buffer windows. -/

namespace Sys2Proof.Machine

open Sys2Proof

/-- The block address of a platform address: its distance from the window base (R103). An address
outside the block's 32-bit space is none, an undecoded access (R102; assumption 11). -/
def blockAddress (c : Config) (addr : Nat) : Option Nat :=
  if c.hostBase ≤ addr ∧ addr - c.hostBase < 2 ^ 32 then some (addr - c.hostBase) else none

/-- The window id of a block address: bits [31:24] (R101). -/
def windowOf (a : Nat) : Nat := a / 2 ^ 24

/-- The offset in its window of a block address: bits [23:0] (R101). -/
def offsetOf (a : Nat) : Nat := a % 2 ^ 24

/-- The buffer space behind a window id, or none where no buffer is (R101). -/
def windowSpace (c : Config) (w : Nat) : Option Space :=
  if w = 0x01 then some .pkt
  else if w = 0x02 then some .work
  else if w = 0x03 then some .out
  else if 0x10 ≤ w ∧ w < 0x10 + c.nslots then some (.frame (w - 0x10))
  else if 0x20 ≤ w ∧ w < 0x20 + c.nslots then some (.halfA (w - 0x20))
  else if 0x30 ≤ w ∧ w < 0x30 + c.nslots then some (.halfB (w - 0x30))
  else none

/-- The spaces the host may write (R101). -/
def hostWritable : Space → Bool
  | .pkt => true
  | .work => true
  | .out => false
  | .frame _ => false
  | .halfA _ => false
  | .halfB _ => false

/-- One byte of a buffer window as the host reads it; 0 past the space's end (R102). -/
def hostByte (s : State) (sp : Space) (o : Nat) : Byte :=
  if o < sp.size s.config then s.spaceByte sp o else 0

/-- A host read of a buffer window: its bytes, the one at the lowest offset the most significant
(R104). -/
def readWindow (s : State) (sp : Space) (o : Nat) : Width → Word
  | .byte => (hostByte s sp o).setWidth 32
  | .half => (hostByte s sp o ++ hostByte s sp (o + 1)).setWidth 32
  | .word =>
    hostByte s sp o ++ hostByte s sp (o + 1) ++ hostByte s sp (o + 2) ++ hostByte s sp (o + 3)

/-- The register an access of a width at an offset reaches: 32 bits wide, 4-byte aligned, below
0x1000 (R101, R104). -/
def registerAccess (c : Config) (w : Width) (o : Nat) : Option Reg :=
  if w = .word ∧ o % 4 = 0 ∧ o < 0x1000 then registerAt c o else none

/-- A host read; an undecoded access reads 0 (R101, R102, R104). No read has a side effect (R108). -/
def hostRead (s : State) (w : Width) (addr : Nat) : Word :=
  match blockAddress s.config addr with
  | none => 0
  | some a =>
    if windowOf a = 0 then
      match registerAccess s.config w (offsetOf a) with
      | none => 0
      | some r => readRegister s r
    else
      match windowSpace s.config (windowOf a) with
      | none => 0
      | some sp => readWindow s sp (offsetOf a) w

/-- Consecutive bytes written to a writable window, each byte past the space's end dropped (R102,
R104). -/
def writeWindow (s : State) (sp : Space) (o : Nat) (bs : List Byte) : State :=
  match bs with
  | [] => s
  | b :: rest =>
    writeWindow (if o < sp.size s.config then s.setSpaceByte sp o b else s) sp (o + 1) rest

/-- A host write of bytes to a buffer window; a write to an R window or to no window has no effect
(R102). -/
def hostWriteBytes (s : State) (a : Nat) (bs : List Byte) : State :=
  match windowSpace s.config (windowOf a) with
  | none => s
  | some sp => if hostWritable sp then writeWindow s sp (offsetOf a) bs else s

end Sys2Proof.Machine
end

