-- ==== Sys2Proof/Machine/Issue.lean ====
section
/-! DEFINITION. How commands are issued (R33, R86, R153, R154), how a held command completes (R11), and
what each move of the environment does (R121). -/

namespace Sys2Proof.Machine

open Sys2Proof

/-- The command word in ICMD is evaluated: an illegal word completes at once with ILLEGAL, a legal
one is evaluated from its first step (R153, R154). -/
def issueIngest (s : State) : Host.Outcome State Fault Refusal :=
  match decodeOn .ingest s.ing.cmd with
  | .error _ => .next (completeIngest s .illegal {})
  | .ok i => exec i s

/-- The command word in CCMD is evaluated (R86, R153, R154). -/
def issueConsumer (s : State) : Host.Outcome State Fault Refusal :=
  match decodeOn .consumer s.con.cmd with
  | .error _ => .next (completeConsumer s .illegal)
  | .ok i => exec i s

/-- A host write to ICMD: ignored while a command holds, else stored and issued in the same step
(R33, R127). -/
def writeIcmd (s : State) (v : Word) : Host.Outcome State Fault Refusal :=
  if s.ing.stat.busy then .next s else issueIngest { s with ing := { s.ing with cmd := v } }

/-- A host write to CCMD (R86). -/
def writeCcmd (s : State) (v : Word) : Host.Outcome State Fault Refusal :=
  if s.con.stat.busy then .next s else issueConsumer { s with con := { s.con with cmd := v } }

/-- A host write to a register (R33, R86, R90). -/
def writeRegister (s : State) (r : Reg) (v : Word) : Host.Outcome State Fault Refusal :=
  match r with
  | .icmd => writeIcmd s v
  | .ccmd => writeCcmd s v
  | r => .next (storeRegister s r v)

/-- A host write of a width at a platform address; an undecoded one has no effect (R101 to R104). -/
def hostWrite (s : State) (w : Width) (addr : Nat) (v : Word) (bytes : List Byte) :
    Host.Outcome State Fault Refusal :=
  match blockAddress s.config addr with
  | none => .next s
  | some a =>
    if windowOf a = 0 then
      match registerAccess s.config w (offsetOf a) with
      | none => .next s
      | some r => writeRegister s r v
    else .next (hostWriteBytes s a bytes)

/-- One move of the environment, as one atomic step (R120, R121). -/
def perform (s : State) (m : Move) : Host.Outcome State Fault Refusal :=
  match m with
  | .read w addr => .next { s with hostData := hostRead s w addr }
  | .writeByte addr v => hostWrite s .byte addr (v.setWidth 32) [v]
  | .writeHalf addr v => hostWrite s .half addr (v.setWidth 32) (bytesOfHalf v)
  | .writeWord addr v => hostWrite s .word addr v (bytesOfWord v)
  | .arrive l packet t => .next (arrival s l packet t)
  | .hardReset => .next s.hardReset

/-- The condition a held command waits for (R11): a slot for FAADD (R313), an event, a pending gap or
a held packet for PSREAD (R412), a token for MBNEXT (R370); a Fatal ends every hold (R456). No
other command holds. -/
def holdLifted (s : State) (i : Instr) : Bool :=
  s.fatal.isSome ||
    match i with
    | .faadd => (acquireSlot s).isSome
    | .psread => decide (s.ps.pending ≠ 0) || s.ps.held.isSome || !s.ps.evq.isEmpty
    | .mbnext => !s.ready.isEmpty
    | .w10get _ _ => true
    | .w10set _ _ => true
    | .rtpparse => true
    | .hbrmtdec => true
    | .profres => true
    | .crccomp _ _ => true
    | .crcwords => true
    | .crccheck _ _ => true
    | .fareset => true
    | .faabort => true
    | .psinit => true
    | .mbtype => true
    | .mbextract => true
    | .mbrelease => true

/-- A command is held on a port and its hold is lifted (R11). -/
def portLifted (s : State) (p : Port) (busy : Bool) (w : Word) : Bool :=
  busy &&
    match decodeOn p w with
    | .ok i => holdLifted s i
    | .error _ => true

/-- The held ingest command evaluated again from its first step, if its hold is lifted (R11). -/
def retryIngest (s : State) : Option (Host.Outcome State Fault Refusal) :=
  if portLifted s .ingest s.ing.stat.busy s.ing.cmd then some (issueIngest s) else none

/-- The held consumer command evaluated again from its first step, if its hold is lifted (R11). -/
def retryConsumer (s : State) : Option (Host.Outcome State Fault Refusal) :=
  if portLifted s .consumer s.con.stat.busy s.con.cmd then some (issueConsumer s) else none

/-- The environment's next move: the first scheduled one, or the next free one (R121, R122). -/
def nextMove (s : State) : Move :=
  match s.agenda with
  | m :: _ => m
  | [] => Config.environment s.moves

/-- The state with the environment's next move taken off. -/
def takeMove (s : State) : State :=
  match s.agenda with
  | _ :: rest => { s with agenda := rest }
  | [] => { s with moves := s.moves + 1 }

/-- One step of the block: a held command whose hold is lifted completes in the first state where it
can, the ingest port's first; otherwise the environment moves (R11, R120, R121). -/
def advance (s : State) : Host.Outcome State Fault Refusal :=
  match retryIngest s with
  | some o => o
  | none =>
    match retryConsumer s with
    | some o => o
    | none => perform (takeMove s) (nextMove s)

/-- The state with the command word `w` next: the environment's next move writes it to the command
register of its port, and no command is held. -/
def scheduleWord (s : State) (w : Word) : State :=
  let off := match decodeOn .consumer w with
    | .ok _ => 0x200
    | .error _ => 0x000
  { s with
    agenda := .writeWord (s.config.hostBase + off) w :: s.agenda
    ing := { s.ing with stat := { s.ing.stat with busy := false } }
    con := { s.con with stat := { s.con.stat with busy := false } } }

end Sys2Proof.Machine
end

