-- ==== Sys2Proof/Machine/Step.lean ====
section
/-! DEFINITION. The step of the block, and where a command word is put so that the next step runs it. -/

namespace Sys2Proof.Machine

open Sys2Proof

/-- One step. A configuration that breaks R5, R6, R7 or a range of 00_scope.md §4 is refused (I10). -/
def step (s : State) : Host.Outcome State Fault Refusal :=
  if s.config.wf then advance s else .refused .invalidConfiguration

/-- The state in which the very next step runs the command whose bits are `w`: the block fetches
nothing (R31, R127), so the word is the host's next write to ICMD or CCMD. -/
def State.withFetchWord (s : State) (nbits w : Nat) : State := scheduleWord s (wordOfBits nbits w)

end Sys2Proof.Machine
end

