-- ==== Sys2Proof/Safety.lean ====
section
/-! DEFINITION. What claims call a safe state: the invariant of the block (R41, R60 to R68, R123, R320,
R380, R411, and the bounds R100 asks every command to check). -/

namespace Sys2Proof.Machine

open Sys2Proof

/-- A block address inside a buffer space (R100, R101). -/
def insideASpace (c : Config) (a : Nat) : Prop :=
  ∃ sp off, off < Space.size c sp ∧ a = Space.base sp + off

/-- A packet an arrival can have stored: its length is in the bounds of R401 and its sequence number
is its bytes 2 and 3. -/
def packetOk (c : Config) (pkt : Packet) : Prop :=
  12 ≤ pkt.bytes.length ∧ pkt.bytes.length ≤ c.maxPktBytes ∧ pkt.seq = packetSeq pkt.bytes

/-- A leg's ring has LEG_CAPACITY entries, each empty or a packet in the entry of its sequence
number (R64, R402). -/
def ringOk (c : Config) (ring : List (Option Packet)) : Prop :=
  ring.length = c.legCapacity ∧
    ∀ (i : Nat) (pkt : Packet), ring[i]? = some (some pkt) →
      packetOk c pkt ∧ pkt.seq.toNat % c.legCapacity = i

/-- The ready slots' frames: the profile is in the table, DUAL is its `multiplexed`, and the frame
fits the frame buffer (R319, R320). -/
def readySlotOk (c : Config) (t : Slot) : Prop :=
  ∃ p, c.profileTable[t.profile.toNat]? = some p ∧ t.dual = p.multiplexed ∧
    p.transportFrameSizeBytes ≤ c.frameBufBytes

/-- The memory keeps its canonical form, and every written byte lies inside a buffer space (R100). -/
structure MemoryInv (s : State) : Prop where
  canonical : memWf s.mem = true
  inSpaces : ∀ cell ∈ s.mem, insideASpace s.config cell.1

/-- The protection switch: the rings, the event queue's bound and the held packet. -/
structure SwitchInv (s : State) : Prop where
  /-- The rings (R64, R402). -/
  ring0 : ringOk s.config s.ps.leg0.ring
  ring1 : ringOk s.config s.ps.leg1.ring
  /-- The event queue is bounded (R66). -/
  eventQueue : s.ps.evq.length ≤ s.config.evqDepth
  /-- A held packet came from the Master, and the gap before it is what is pending (R410, R411,
  R416). -/
  heldOk : ∀ h, s.ps.held = some h →
    packetOk s.config h.packet ∧ h.leg = s.ps.master ∧ s.ps.heldSeq = h.packet.seq ∧
      ∃ e, s.ps.expected = some e ∧ h.packet.seq = e + s.ps.pending
  /-- While a gap is pending a packet is held (R411). -/
  pendingHeld : s.ps.pending ≠ 0 → s.ps.held.isSome = true

/-- The assembler, the frame slots and the ready queue, under a configuration the model gives a
meaning to. -/
structure FrameInv (s : State) : Prop where
  /-- The configuration is one the model gives a meaning to (R5, R6, R7). -/
  config : s.config.wf = true
  /-- There are NSLOTS slots (R60). -/
  slotCount : s.slots.length = s.config.nslots
  /-- The assembler's slot is FILLING (R41, R60). -/
  curFilling : ∀ c, s.fa.cur = some c → ∃ t, s.slots[c.toNat]? = some t ∧ t.state = .filling
  /-- A FILLING slot is the assembler's (R60). -/
  fillingCur : ∀ (k : Nat) (t : Slot), s.slots[k]? = some t → t.state = .filling →
    s.fa.cur = some (BitVec.ofNat 8 k)
  /-- A READY slot holds a frame of its profile (R320). -/
  readySlots : ∀ (k : Nat) (t : Slot), s.slots[k]? = some t → t.state = .ready →
    readySlotOk s.config t
  /-- Every queued token is valid (R370, R380). -/
  tokensValid : ∀ t ∈ s.ready, validToken s t = true
  /-- At most six tokens of one slot are queued (R320). -/
  tokensPerSlot : ∀ k : Nat, (s.ready.filter fun t => decide (tokenSlot t = k)).length ≤ 6
  /-- A bound profile is in the table (R317). -/
  boundProfile : ∀ k, s.fa.profile = some k → k.toNat < s.config.profileTable.length
  /-- Nothing is collected without a bound profile (R317). -/
  unboundEmpty : s.fa.profile = none → s.fa.pktcnt = 0
  /-- The bytes collected fit the frame buffer (R318). -/
  accFits : s.fa.acc.toNat ≤ s.config.frameBufBytes
  /-- In Complete the assembler owns no slot (R319). -/
  completeNoSlot : s.fa.state = .complete → s.fa.cur = none
  /-- In WaitingSync nothing is collected (R315, R331). -/
  waitingEmpty : s.fa.state = .waitingSync → s.fa.acc = 0 ∧ s.fa.pktcnt = 0

/-- Only FAADD and PSREAD hold on the ingest port, only MBNEXT on the consumer port (R11). -/
structure PortInv (s : State) : Prop where
  ingestHold : s.ing.stat.busy = true →
    decodeOn .ingest s.ing.cmd = .ok .faadd ∨ decodeOn .ingest s.ing.cmd = .ok .psread
  consumerHold : s.con.stat.busy = true → decodeOn .consumer s.con.cmd = .ok .mbnext

/-- The invariant of the block. Hardware reset establishes it, every step keeps it, and no step from
a state that meets it faults. -/
structure Inv (s : State) : Prop where
  memory : MemoryInv s
  frame : FrameInv s
  switch : SwitchInv s
  ports : PortInv s

/-! ## Frames, in terms of reading one byte -/

/-- A block address inside a given buffer space (R100, R101). -/
def inSpace (c : Config) (sp : Space) (a : Nat) : Prop := sp.base ≤ a ∧ a < sp.base + sp.size c

/-- The buffer spaces a command writes (R100, "written by"). -/
def mayWrite (i : Instr) (sp : Space) : Prop :=
  match i with
  | .w10set _ _ => sp = .pkt ∨ sp = .work
  | .psread => sp = .pkt
  | .faadd => ∃ k, sp = .frame k
  | .mbextract => sp = .out ∨ ∃ k, sp = .halfA k ∨ sp = .halfB k
  | .w10get _ _ => False
  | .rtpparse => False
  | .hbrmtdec => False
  | .profres => False
  | .crccomp _ _ => False
  | .crcwords => False
  | .crccheck _ _ => False
  | .fareset => False
  | .faabort => False
  | .psinit => False
  | .mbnext => False
  | .mbtype => False
  | .mbrelease => False

/-- The command answers a next state that is `u` but for its memory, whose byte at each address `a`
reads as `bytes a`. -/
def answersWithBytes (i : Instr) (s u : State) (bytes : Nat → Byte) : Prop :=
  ∃ t, exec i s = .next t ∧ { t with mem := s.mem } = u ∧ ∀ a, t.byteAt a = bytes a

/-- The bytes of the memory once a list of bytes is stored from block address `b` on. -/
def bytesStored (s : State) (b : Nat) (bs : List Byte) (a : Nat) : Byte :=
  if b ≤ a ∧ a < b + bs.length then bs.getD (a - b) 0 else s.byteAt a

/-! ## The opcode map (R152) -/

/-- A row of the opcode map: its port, its mask and match value, and the command its SP and SL fields
make. -/
structure OpcodeMapRow where
  port : Port
  mask : Word
  value : Word
  make : Nat → Nat → Instr

/-- A format-S row. -/
def rowS (op : Nat) (make : Nat → Nat → Instr) : OpcodeMapRow :=
  { port := .ingest, mask := 0xFF00FFFF, value := BitVec.ofNat 32 (op * 2 ^ 24), make }

/-- A format-N row. -/
def rowN (port : Port) (op : Nat) (i : Instr) : OpcodeMapRow :=
  { port, mask := 0xFFFFFFFF, value := BitVec.ofNat 32 (op * 2 ^ 24), make := fun _ _ => i }

/-- The opcode map (R152). -/
def opcodeMap : List OpcodeMapRow :=
  [ rowS 0x01 .w10get, rowS 0x02 .w10set, rowN .ingest 0x10 .rtpparse,
    rowN .ingest 0x11 .hbrmtdec, rowN .ingest 0x12 .profres, rowS 0x18 .crccomp,
    rowN .ingest 0x19 .crcwords, rowS 0x1A .crccheck, rowN .ingest 0x20 .fareset,
    rowN .ingest 0x21 .faadd, rowN .ingest 0x22 .faabort, rowN .ingest 0x30 .psinit,
    rowN .ingest 0x31 .psread, rowN .consumer 0x40 .mbnext, rowN .consumer 0x41 .mbtype,
    rowN .consumer 0x42 .mbextract, rowN .consumer 0x43 .mbrelease ]

/-- A word that matches no row of a port is illegal on it (R153). -/
def illegalOn (p : Port) (w : Word) : Prop :=
  ∀ row ∈ opcodeMap, row.port = p → w &&& row.mask ≠ row.value

/-- The status codes each command returns (R450, "returned by"), the fatal gate's aside. -/
def returnedBy (i : Instr) : List Status :=
  match i with
  | .w10get _ _ => [.ok, .badArg]
  | .w10set _ _ => [.ok, .badArg]
  | .rtpparse => [.ok, .badArg, .malformed]
  | .hbrmtdec => [.ok, .badArg, .malformed]
  | .profres => [.ok, .notDefined]
  | .crccomp _ _ => [.ok, .badArg]
  | .crcwords => [.ok]
  | .crccheck _ _ => [.badArg, .crcPass, .crcFail]
  | .fareset => [.ok]
  | .faadd => [.badArg, .fatal, .malformed, .ptDrop, .discarded, .resync, .appended, .complete]
  | .faabort => [.ok]
  | .psinit => [.ok]
  | .psread => [.delivered, .packetLost, .unrecoverable, .noData, .duplicate, .overrun]
  | .mbnext => [.ok]
  | .mbtype => [.ok, .badToken]
  | .mbextract => [.ok, .badToken, .tooSmall, .unsupported]
  | .mbrelease => [.ok, .badSlot]

/-! ## Whose turn a step is -/

/-- No held command can go on, so the environment moves. -/
def environmentTurn (s : State) : Prop :=
  portLifted s .ingest s.ing.stat.busy s.ing.cmd = false ∧
    portLifted s .consumer s.con.stat.busy s.con.cmd = false

/-- The environment's next move is a 32-bit host write of `v` to the register at offset `off`. -/
def nextWrites (s : State) (off : Nat) (v : Word) : Prop :=
  nextMove s = .writeWord (s.config.hostBase + off) v

/-- The state after `n` PSREADs in a row, if each answers a next state. -/
def psreads (n : Nat) (s : State) : Option State :=
  match n with
  | 0 => some s
  | n + 1 =>
    match exec .psread s with
    | .next t => psreads n t
    | .fault _ => none
    | .refused _ => none

/-! ## Hardware reset (R490) -/

/-- The reset value of each register, as R490 lists them. -/
def resetWord (c : Config) (r : Reg) : Word :=
  match r with
  | .psThresh => c.threshReset
  | .profRes => 0x000000FF
  | .faState => 0x0000FF05
  | .slotInfo k => if c.nslots ≤ k then 0 else if k = 0 then 0x0000FF01 else 0x0000FF00
  | _ => 0

/-- Every piece of state is at its reset value (R490). -/
def atReset (c : Config) (t : State) : Prop :=
  (∀ r, readRegister t r = resetWord c r) ∧ t.config = c ∧ t.slots.length = c.nslots ∧
    t.ready = [] ∧ (∀ l, (legState t.ps l).ring = List.replicate c.legCapacity none) ∧
    (∀ l, (legState t.ps l).lastArrival = none) ∧ t.ps.evq = [] ∧ t.ps.held = none ∧
    t.ps.expected = none ∧ t.mem = []

/-! ## The words of the registers (10_state.md), field by field from the most significant

A word whose fields end below bit 31 is zero-extended: its reserved bits read 0 (R90). -/

/-- FATAL (R47, R455). -/
def fatalLayout (f : Option FatalRecord) : Word :=
  match f with
  | none => 0
  | some r =>
    (r.seq ++ (0 : BitVec 9) ++ r.stage ++
      (match r.cause with
        | .profile => (1 : BitVec 3)
        | .length => 2
        | .overflow => 3) ++ (1 : BitVec 1)).setWidth 32

/-- The KIND and STAGE codes of an event: 1 TRANSPORT, 2 SYNC, 3 GEOMETRY, 4 SWITCH (R53, R54). -/
def eventCodes (k : EventKind) : BitVec 8 × BitVec 4 :=
  match k with
  | .malformed => (1, 1)
  | .ptDrop => (2, 1)
  | .seqLoss => (3, 2)
  | .profileFatal => (4, 3)
  | .lengthFatal => (5, 3)
  | .overflowFatal => (6, 3)
  | .psGap => (7, 4)
  | .psUnrecov => (8, 4)
  | .psSwap => (9, 4)
  | .psDup => (10, 4)
  | .psOverrun => (11, 4)
  | .psEvqDrop => (12, 4)
  | .psRxMalformed => (13, 4)

/-- EV_INFO (R53, R54): SEQ_VALID, LEG, LEG_VALID, KIND, STAGE. -/
def evInfoLayout (e : Option EventRecord) : Word :=
  match e with
  | none => 0
  | some e =>
    (BitVec.ofBool e.range.isSome ++
      (match e.leg with
        | none => (0 : BitVec 2)
        | some .leg0 => 1
        | some .leg1 => 3) ++ (eventCodes e.kind).1 ++ (eventCodes e.kind).2).setWidth 32

/-- EV_SEQ (R53): LAST, FIRST. -/
def evSeqLayout (e : Option EventRecord) : Word :=
  match e.bind EventRecord.range with
  | none => 0
  | some (first, last) => (last ++ first).setWidth 32

/-- FA_STATE (R41): LAST_FRCOUNT, CUR_SLOT, PROFILE, BOUND, FIRST, STATE. -/
def faStateLayout (f : Assembler) : Word :=
  (f.lastFrcount ++ f.cur.getD 0xFF ++ f.profile.getD 0xFF ++ (0 : BitVec 4) ++
    BitVec.ofBool f.profile.isSome ++ BitVec.ofBool f.first ++
    (match f.state with
      | .waitingSync => (0 : BitVec 2)
      | .collecting => 1
      | .complete => 2)).setWidth 32

/-- PS_STATE (R48): EXPECTED (0 while EXP_VALID = 0: assumption 15), EXP_VALID, HELD, CATCHUP, ONLINE1,
ONLINE0, MASTER. -/
def psStateLayout (p : Switch) : Word :=
  (p.expected.getD 0 ++ (0 : BitVec 10) ++ BitVec.ofBool p.expected.isSome ++
    BitVec.ofBool p.held.isSome ++ BitVec.ofBool (decide (p.pending ≠ 0)) ++ BitVec.ofBool p.leg1.online ++
    BitVec.ofBool p.leg0.online ++
    (match p.master with
      | .leg0 => (0 : BitVec 1)
      | .leg1 => 1)).setWidth 32

/-- SLOT_INFO (R61): GEN, PROFILE, DEMUXED, DUAL, STATE. -/
def slotInfoLayout (x : Slot) : Word :=
  (x.gen ++ x.profile ++ (0 : BitVec 4) ++ BitVec.ofBool x.demuxed ++ BitVec.ofBool x.dual ++
    (match x.state with
      | .free => (0 : BitVec 2)
      | .filling => 1
      | .ready => 2)).setWidth 32

/-- Every register at a fixed offset, with the word it holds (10_state.md, sections 2 to 7). PS_EVQ_COUNT
is the number of queued events modulo 2^32 (past 2^32 − 1 entries: DESIGN CHOICE, assumption 22). -/
def registerWords (s : State) : List (Nat × Word) :=
  [ (0x000, s.ing.cmd),
    (0x004,
      (BitVec.ofBool s.ing.stat.flags.swap ++ BitVec.ofBool s.ing.stat.flags.repaired ++
        BitVec.ofBool s.ing.stat.flags.loss ++ BitVec.ofBool s.ing.stat.busy ++
        statusCode s.ing.stat.code).setWidth 32),
    (0x008, s.ing.pktLen.setWidth 32),
    (0x010, s.ing.ia0), (0x014, s.ing.ia1), (0x018, s.ing.ia2), (0x01C, s.ing.ia3),
    (0x020, s.ing.ir0), (0x024, s.ing.ir1), (0x030, s.ps.thresh),
    (0x040, s.hdr.rtpHdr), (0x044, s.hdr.rtpTs), (0x048, s.hdr.rtpSsrc),
    (0x050, s.hdr.hbW0), (0x054, s.hdr.hbW1), (0x058, s.hdr.hbTs),
    (0x05C, (s.hdr.hbPayLen ++ s.hdr.hbHdrLen).setWidth 32),
    (0x060, (s.hdr.profStage ++ s.hdr.profIndex).setWidth 32),
    (0x070, s.hdr.crcRem.setWidth 32),
    (0x074, (s.hdr.crcWord1 ++ (0 : BitVec 6) ++ s.hdr.crcWord0).setWidth 32) ] ++
  [ (0x080, faStateLayout s.fa), (0x084, s.fa.lastSeq.setWidth 32), (0x088, s.fa.acc),
    (0x08C, s.fa.pktcnt), (0x090, s.fa.padding), (0x094, s.fa.frameSize),
    (0x098, fatalLayout s.fatal), (0x0A0, psStateLayout s.ps),
    (0x0A4, s.ps.pending.setWidth 32), (0x0A8, BitVec.ofNat 32 s.ps.evq.length),
    (0x0AC, s.ps.heldSeq.setWidth 32) ] ++
  [ (0x0C0, s.cnt.malformed), (0x0C4, s.cnt.ptDrop), (0x0C8, s.cnt.seqLoss), (0x0CC, s.cnt.frames),
    (0x0D0, s.cnt.psGap), (0x0D4, s.cnt.psRepaired), (0x0D8, s.cnt.psUnrecov),
    (0x0DC, s.cnt.psSwap), (0x0E0, s.cnt.psDup), (0x0E4, s.cnt.psOverrun),
    (0x0E8, s.cnt.psEvqDrop), (0x0EC, s.cnt.psRxMalformed),
    (0x0F0, s.ev.count), (0x0F4, evInfoLayout s.ev.last), (0x0F8, evSeqLayout s.ev.last) ] ++
  [ (0x200, s.con.cmd),
    (0x204, (BitVec.ofBool s.con.stat.busy ++ statusCode s.con.stat.code).setWidth 32),
    (0x210, s.con.ca0), (0x214, s.con.ca1), (0x220, s.con.cr0), (0x224, s.con.cr1),
    (0x228, BitVec.ofNat 32 s.ready.length) ]

/-- The state after single-byte host writes of a list of bytes at rising addresses, if each answers a
next state (R104). -/
def byteWrites (s : State) (addr : Nat) (bytes : List Byte) : Option State :=
  match bytes with
  | [] => some s
  | b :: rest =>
    match perform s (.writeByte addr b) with
    | .next t => byteWrites t (addr + 1) rest
    | .fault _ => none
    | .refused _ => none

/-! ## The packet FAADD looks at -/

/-- The M bit of the packet in PKT (R141). -/
def pktMarker (s : State) : Bool := (s.spaceByte .pkt 1).getLsbD 7

/-- The payload type of the packet in PKT (R141). -/
def pktType (s : State) : BitVec 7 := (s.spaceByte .pkt 1).extractLsb' 0 7

/-- The sequence number of the packet in PKT (R141). -/
def pktSeq (s : State) : Seq := be16 s .pkt 2

/-- The header length of the packet in PKT: 8, 4 more when CF ≠ 0, and 4·EXT (R142, R241). -/
def pktHeaderLength (s : State) : Nat :=
  8 + (if (be32 s .pkt 12).extractLsb' 5 4 ≠ 0 then 4 else 0) +
    4 * ((be32 s .pkt 12).extractLsb' 28 4).toNat

/-- PKT_LEN.LEN. -/
def pktLength (s : State) : Nat := s.ing.pktLen.toNat

/-- The HBRMT payload of the packet in PKT (R242). -/
def pktPayload (s : State) : List Byte :=
  s.spaceBytes .pkt (12 + pktHeaderLength s) (pktLength s - 12 - pktHeaderLength s)

/-- The block is not fatal, and the packet in PKT passes FAADD's length and transport checks (R311,
R312). -/
def passesTransport (s : State) : Prop :=
  s.fatal = none ∧ pktLength s ≤ s.config.maxPktBytes ∧ 20 ≤ pktLength s ∧ pktType s = 98 ∧
    12 + pktHeaderLength s ≤ pktLength s

/-- The slot FAADD collects into, and the slots once it owns it: its own, or the lowest-numbered FREE
one (R313). -/
def takesSlot (s : State) (k : Nat) (slots : List Slot) : Prop :=
  k < s.config.nslots ∧
    match s.fa.cur with
    | some c => k = c.toNat ∧ slots = s.slots
    | none =>
      (∃ t, s.slots[k]? = some t ∧ t.state = .free) ∧
        (∀ j < k, ∀ t, s.slots[j]? = some t → t.state ≠ .free) ∧
        slots = s.slots.modify k fun t => { t with state := .filling }

/-- The packet in PKT is the first since reset, or the successor of the last (R315). -/
def inSequence (s : State) : Prop := s.fa.first = true ∨ pktSeq s = s.fa.lastSeq + 1

/-- The packet in PKT belongs to the frame being collected, or starts the one after Complete. -/
def collects (s : State) : Prop :=
  passesTransport s ∧ inSequence s ∧ s.fa.state ≠ .waitingSync

/-- The bytes accumulated before this packet: none after Complete (R314). -/
def startAcc (s : State) : Word := if s.fa.state = .complete then 0 else s.fa.acc

/-- The packets appended before this one: none after Complete (R314). -/
def startCount (s : State) : Word := if s.fa.state = .complete then 0 else s.fa.pktcnt

/-- What the resolver says of the packet in PKT (R251, R317). -/
def pktResolves (s : State) : Except ResolveStage (Nat × Profile) :=
  resolveFromHbrmt s.config (hbMap (be32 s .pkt 16)) (hbFrm (be32 s .pkt 16))
    (hbFrate (be32 s .pkt 16)) (hbSample (be32 s .pkt 16))

/-- The profile bound once FAADD's binding step has passed (R317). -/
def bindsTo (s : State) (bound : Option (BitVec 8)) : Prop :=
  if startCount s = 0 ∧ s.fa.profile = none then
    ∃ k p, pktResolves s = .ok (k, p) ∧ bound = some (BitVec.ofNat 8 k)
  else bound = s.fa.profile

/-- The assembler once the packet in PKT is appended (R314, R315, R317, R318). -/
def appendedTo (s : State) (k : Nat) (bound : Option (BitVec 8)) : Assembler :=
  { s.fa with
    state := .collecting, first := false, profile := bound, cur := some (BitVec.ofNat 8 k)
    lastFrcount := (be32 s .pkt 12).extractLsb' 16 8, lastSeq := pktSeq s
    acc := startAcc s + BitVec.ofNat 32 (pktPayload s).length, pktcnt := startCount s + 1 }

end Sys2Proof.Machine
end

