-- ==== Sys2Proof/Certificates/Slice0/Obligations.lean ====
section
/-! DEFINITION. The statements for the provers. Each docstring names the rule of spec/ it formalises; a
statement marked "model's choice" rests on the log entry it names. -/

open Sys2Proof Sys2Proof.Machine

/-! ## Encoding -/

/-- Decoding the word of a command that has an encoding gives the command back, on either port's
reading and on its own port (R140, R152). -/
def Obligations.DecodeEncodeAgree : Prop :=
  ∀ i : Instr, i.wellFormed = true →
    decode (encode i) = .ok i ∧ decodeOn i.port (encode i) = .ok i

/-- Every legal word is the one word of a command that has an encoding (R140, R152). -/
def Obligations.EncodeDecodeAgree : Prop :=
  ∀ (w : Word) (i : Instr), decode w = .ok i → i.wellFormed = true ∧ encode i = w

/-- R152: a word stands for a command on a port exactly when it matches that command's row of the
opcode map, its SP and SL fields taken from bits [23:20] and [19:16]. -/
def Obligations.LegalWordsAreTheOpcodeMap : Prop :=
  ∀ (p : Port) (w : Word) (i : Instr),
    decodeOn p w = .ok i ↔
      ∃ row ∈ opcodeMap, row.port = p ∧ w &&& row.mask = row.value ∧
        i = row.make (w.extractLsb' 20 4).toNat (w.extractLsb' 16 4).toNat

/-- Words the spec writes out, and what each stands for (R152, R153; the examples of R210, R211,
R290 and R292). -/
def Obligations.DecodesSpecWords : Prop :=
  decode 0x01000000 = .ok (.w10get 0 0) ∧ decode 0x01320000 = .ok (.w10get 3 2) ∧
    decode 0x02100000 = .ok (.w10set 1 0) ∧ decode 0x18100000 = .ok (.crccomp 1 0) ∧
    decode 0x1A100000 = .ok (.crccheck 1 0) ∧ decode 0x21000000 = .ok .faadd ∧
    decode 0x31000000 = .ok .psread ∧ decode 0x43000000 = .ok .mbrelease ∧
    decode 0x00000000 = .error .unknownOpcode ∧ decode 0x01000001 = .error .mustBeZero ∧
    decodeOn .consumer 0x01000000 = .error .wrongPort

/-! ## Issuing a command -/

/-- A STEP RUNS THE DECODED COMMAND. When the environment's turn is a write of a legal command word to
a free port's command register, the step is `exec` of that command, with the word stored and the move
taken off the schedule; a write to a busy port's command register is ignored; and `withFetchWord`
puts the word where the very next step runs it (R33, R86, R127; that the write and the command are one
step is the model's choice, assumption 7, and so is `withFetchWord`, assumption 9). -/
def Obligations.StepRunsIssuedCommand : Prop :=
  (∀ (s : State) (w : Word) (i : Instr), s.config.wf = true → environmentTurn s →
    nextWrites s 0x000 w → s.ing.stat.busy = false → decodeOn .ingest w = .ok i →
      step s = exec i { takeMove s with ing := { s.ing with cmd := w } }) ∧
  (∀ (s : State) (w : Word) (i : Instr), s.config.wf = true → environmentTurn s →
    nextWrites s 0x200 w → s.con.stat.busy = false → decodeOn .consumer w = .ok i →
      step s = exec i { takeMove s with con := { s.con with cmd := w } }) ∧
  (∀ (s : State) (w : Word), s.config.wf = true → environmentTurn s →
    (nextWrites s 0x000 w ∧ s.ing.stat.busy = true) ∨
        (nextWrites s 0x200 w ∧ s.con.stat.busy = true) →
      step s = .next (takeMove s)) ∧
  (∀ (s : State) (w : Word) (i : Instr), s.config.wf = true → decode w = .ok i →
    step (s.withFetchWord 32 w.toNat) =
      exec i
        (match i.port with
          | .ingest => { s with ing.stat.busy := false, con.stat.busy := false, ing.cmd := w }
          | .consumer => { s with ing.stat.busy := false, con.stat.busy := false, con.cmd := w }))

/-- R153: a word that matches no row of its port's part of the opcode map completes at once with
ILLEGAL, and changes nothing else but the command register that stores it (R33) and the result bits
that every completion rewrites (R32; that ILLEGAL rewrites them too is assumption 8, DEDUCED). -/
def Obligations.IllegalWordCompletes : Prop :=
  (∀ (s : State) (w : Word), s.config.wf = true → environmentTurn s → nextWrites s 0x000 w →
    s.ing.stat.busy = false → illegalOn .ingest w →
      step s =
        .next
          { takeMove s with
            ing :=
              { s.ing with
                cmd := w, stat := { code := .illegal, busy := false, flags := {} } } }) ∧
  (∀ (s : State) (w : Word), s.config.wf = true → environmentTurn s → nextWrites s 0x200 w →
    s.con.stat.busy = false → illegalOn .consumer w →
      step s =
        .next
          { takeMove s with
            con := { s.con with cmd := w, stat := { code := .illegal, busy := false } } })

/-- A held command goes on in the first state where its condition holds: MBNEXT with a token queued,
PSREAD with a gap, a held packet or an event, FAADD with a FREE slot; and a Fatal ends every hold
(R11, R456). That it does so as the very next step, the ingest port's first, is the model's choice
(assumption 5, DEDUCED). -/
def Obligations.HeldCommandCompletes : Prop :=
  (∀ (s : State) (w : Word) (rest : List Word), s.config.wf = true → s.fatal = none →
    portLifted s .ingest s.ing.stat.busy s.ing.cmd = false → s.con.stat.busy = true →
    s.con.cmd = 0x40000000 → s.ready = w :: rest →
      step s =
        .next
          { s with
            ready := rest
            con :=
              { s.con with
                cr0 := w, cr1 := (w.extractLsb' 8 4).setWidth 32
                stat := { code := .ok, busy := false } } }) ∧
  (∀ s : State, s.config.wf = true → s.ing.stat.busy = true → s.ing.cmd = 0x31000000 →
    (s.ps.pending ≠ 0 ∨ s.ps.held ≠ none ∨ s.ps.evq ≠ []) → step s = exec .psread s) ∧
  (∀ s : State, s.config.wf = true → s.ing.stat.busy = true → s.ing.cmd = 0x21000000 →
    (∃ t ∈ s.slots, t.state = .free) → step s = exec .faadd s) ∧
  (∀ (s : State) (i : Instr), s.config.wf = true → s.fatal.isSome = true →
    s.ing.stat.busy = true → decodeOn .ingest s.ing.cmd = .ok i →
      step s = .next { s with ing.stat := { code := .fatal, busy := false, flags := {} } }) ∧
  (∀ (s : State) (i : Instr), s.config.wf = true → s.fatal.isSome = true →
    s.ing.stat.busy = false → s.con.stat.busy = true → decodeOn .consumer s.con.cmd = .ok i →
      step s = .next { s with con.stat := { code := .fatal, busy := false } })

/-! ## Fatal -/

/-- While the block is fatal every legal command completes at once with FATAL and changes nothing else
(R456; decoding step 2 of R154; that FATAL rewrites the result bits of R32 is assumption 8, DEDUCED). -/
def Obligations.FatalGateEndsEveryCommand : Prop :=
  ∀ (i : Instr) (s : State), s.fatal.isSome = true →
    exec i s =
      .next
        (match i.port with
          | .ingest => { s with ing.stat := { code := .fatal, busy := false, flags := {} } }
          | .consumer => { s with con.stat := { code := .fatal, busy := false } })

/-- While the block is fatal, a step either is hardware reset, the only return, or changes nothing but
the ports' statuses, command words and argument registers, PKT_LEN, PS_THRESH and the bytes of PKT
and WORK (R456, R457); an arrival has no effect at all. -/
def Obligations.FatalHaltsTheBlock : Prop :=
  (∀ s t : State, s.fatal.isSome = true → step s = .next t →
    (nextMove s = .hardReset ∧ t = (takeMove s).hardReset) ∨
    (t.fatal = s.fatal ∧ t.fa = s.fa ∧ t.hdr = s.hdr ∧ t.cnt = s.cnt ∧ t.ev = s.ev ∧
      t.slots = s.slots ∧ t.ready = s.ready ∧ { t.ps with thresh := s.ps.thresh } = s.ps ∧
      t.ing.ir0 = s.ing.ir0 ∧ t.ing.ir1 = s.ing.ir1 ∧ t.con.cr0 = s.con.cr0 ∧
      t.con.cr1 = s.con.cr1 ∧ t.config = s.config ∧
      ∀ a, ¬ inSpace s.config .pkt a → ¬ inSpace s.config .work a → t.byteAt a = s.byteAt a)) ∧
  (∀ (s : State) (l : Leg) (bytes : List Byte) (time : Time), s.fatal.isSome = true →
    perform s (.arrive l bytes time) = .next s)

/-- Only FAADD raises Fatal: FATAL then holds the sequence number of the packet in PKT, a stage from 1
to 4 for PROFILE and 0 for the other causes, the command ends with FATAL, and the event it announces
is the one recorded (R455, R317 to R319). -/
def Obligations.FatalOnlyFromFaadd : Prop :=
  ∀ (s t : State) (r : FatalRecord), s.fatal = none → step s = .next t → t.fatal = some r →
    t.ing.stat.code = .fatal ∧ t.ing.stat.busy = false ∧
      decodeOn .ingest t.ing.cmd = .ok .faadd ∧ r.seq = pktSeq s ∧
      (match r.cause with
        | .profile => 1 ≤ r.stage ∧ r.stage ≤ 4
        | .length => r.stage = 0
        | .overflow => r.stage = 0) ∧
      t.ev.last =
        some
          { kind :=
              match r.cause with
              | .profile => .profileFatal
              | .length => .lengthFatal
              | .overflow => .overflowFatal
            leg := none, range := some (r.seq, r.seq) }

/-! ## Configuration and reset -/

/-- R5: a configuration that breaks any of the three buffer conditions is refused. For an empty
PROFILE_TABLE, where R5 leaves Tmax unsaid, the first clause takes Tmax as 0: the model's choice,
assumption 20. -/
def Obligations.InvalidConfigurationRefused : Prop :=
  ∀ s : State,
    ((s.config.frameBufBytes + 1 < s.config.maxPktBytes - 20) ∨
      (∃ p ∈ s.config.profileTable,
        s.config.frameBufBytes + 1 <
          p.transportFrameSizeBytes + (s.config.maxPktBytes - 20)) ∨
      ((∃ p ∈ s.config.profileTable, p.multiplexed = true) ∧
        ∃ p ∈ s.config.profileTable, 2 * s.config.halfBufBytes < p.transportFrameSizeBytes) ∨
      (∃ p ∈ s.config.profileTable,
        s.config.outBytes < p.activeHeight * p.activeWidthBytes)) →
    step s = .refused .invalidConfiguration

/-- R490: hardware reset is one step that puts every piece of state at its reset value, keeps the ROM
tables, and leaves every buffer byte unspecified anew; the state the model calls reset is there. -/
def Obligations.ResetGivesResetValues : Prop :=
  (∀ c : Config, atReset c (State.resetOf c)) ∧
  (∀ s : State, perform s .hardReset = .next s.hardReset ∧ atReset s.config s.hardReset ∧
    ∀ a, s.hardReset.byteAt a = Config.unwrittenByte (s.epoch + 1) a)

/-- The reset state of every configuration the model gives a meaning to meets the invariant; so does
`State.reset`, whose configuration is the model's choice (assumption 2). -/
def Obligations.ResetMeetsInvariant : Prop :=
  (∀ c : Config, c.wf = true → Inv (State.resetOf c)) ∧ Inv State.reset

/-! ## Invariants of every step -/

/-- Every step keeps the memory's canonical form and every written byte inside a buffer space
(R100). -/
def Obligations.MemoryInvariantKept : Prop :=
  ∀ s t : State, MemoryInv s → step s = .next t → MemoryInv t

/-- Every step keeps the protection switch's invariant (R64 to R68, R402, R410, R411). -/
def Obligations.SwitchInvariantKept : Prop :=
  ∀ s t : State, SwitchInv s → step s = .next t → SwitchInv t

/-- Every step keeps the invariant of the assembler, the slots and the ready queue (R41, R60, R63,
R123, R320, R370). -/
def Obligations.FrameInvariantKept : Prop :=
  ∀ s t : State, FrameInv s → step s = .next t → FrameInv t

/-- Every step keeps the invariant of the ports: only FAADD, PSREAD and MBNEXT are ever held (R11). -/
def Obligations.PortInvariantKept : Prop :=
  ∀ s t : State, PortInv s → step s = .next t → PortInv t

/-- From a state that meets the invariant every step answers a next state: no fault, no refusal, and
no access past the end of a space (R100). -/
def Obligations.EveryStepCompletes : Prop := ∀ s : State, Inv s → ∃ t, step s = .next t

/-- R63: the ready queue holds at most 6·NSLOTS tokens in every state that meets the invariant. -/
def Obligations.ReadyQueueBounded : Prop :=
  ∀ s : State, FrameInv s → s.ready.length ≤ 6 * s.config.nslots

/-- No step writes the ROM tables or any other parameter (R70). -/
def Obligations.ConfigNeverChanges : Prop :=
  ∀ s t : State, step s = .next t → t.config = s.config

/-- R52, R10: a step changes each of the twelve counters by at most 1, modulo 2^32; only hardware
reset clears them. -/
def Obligations.CountersOnlyCount : Prop :=
  ∀ s t : State, step s = .next t →
    (∀ f ∈ [Counters.malformed, Counters.ptDrop, Counters.seqLoss, Counters.frames, Counters.psGap,
        Counters.psRepaired, Counters.psUnrecov, Counters.psSwap, Counters.psDup,
        Counters.psOverrun, Counters.psEvqDrop, Counters.psRxMalformed],
      f t.cnt = f s.cnt ∨ f t.cnt = f s.cnt + 1) ∨
    (nextMove s = .hardReset ∧ t = (takeMove s).hardReset)

/-! ## Frames -/

/-- Every byte a command changes lies in a space R100 says it writes: W10SET in PKT or WORK, PSREAD in
PKT, FAADD in a frame buffer, MBEXTRACT in OUT or a half-frame buffer, and no other command any. -/
def Obligations.CommandsWriteOnlyTheirSpaces : Prop :=
  ∀ (i : Instr) (s t : State) (a : Nat), exec i s = .next t → t.byteAt a ≠ s.byteAt a →
    ∃ sp, mayWrite i sp ∧ inSpace s.config sp a

/-- The registers and tables each command leaves alone: the argument registers by all, PKT_LEN by all
but PSREAD, the other port's registers by all, the result registers by those that do not name them,
each header and CRC register by every command that does not write it, and each unit's state by the
commands of the other units (R30, R35, R37 to R40, R312, R330, R371, R420, R498). -/
def Obligations.CommandsWriteOnlyTheirRegisters : Prop :=
  ∀ (i : Instr) (s t : State), exec i s = .next t →
    (t.config = s.config ∧ t.agenda = s.agenda ∧ t.moves = s.moves ∧ t.epoch = s.epoch ∧
      t.hostData = s.hostData) ∧
    (t.ing.cmd = s.ing.cmd ∧ t.ing.ia0 = s.ing.ia0 ∧ t.ing.ia1 = s.ing.ia1 ∧
      t.ing.ia2 = s.ing.ia2 ∧ t.ing.ia3 = s.ing.ia3 ∧ t.ps.thresh = s.ps.thresh ∧
      t.con.cmd = s.con.cmd ∧ t.con.ca0 = s.con.ca0 ∧ t.con.ca1 = s.con.ca1) ∧
    (i ≠ .psread → t.ing.pktLen = s.ing.pktLen) ∧
    (i.port = .ingest → t.con = s.con) ∧
    (i.port = .consumer →
      t.ing = s.ing ∧ t.hdr = s.hdr ∧ t.fa = s.fa ∧ t.fatal = s.fatal ∧ t.ps = s.ps ∧
        t.cnt = s.cnt ∧ t.ev = s.ev) ∧
    (match i with
      | .rtpparse =>
        t.hdr =
          { s.hdr with
            rtpHdr := t.hdr.rtpHdr, rtpTs := t.hdr.rtpTs, rtpSsrc := t.hdr.rtpSsrc }
      | .hbrmtdec =>
        t.hdr =
          { s.hdr with
            hbW0 := t.hdr.hbW0, hbW1 := t.hdr.hbW1, hbTs := t.hdr.hbTs
            hbHdrLen := t.hdr.hbHdrLen, hbPayLen := t.hdr.hbPayLen }
      | .profres =>
        t.hdr = { s.hdr with profIndex := t.hdr.profIndex, profStage := t.hdr.profStage }
      | .crccomp _ _ => t.hdr = { s.hdr with crcRem := t.hdr.crcRem }
      | .crcwords =>
        t.hdr = { s.hdr with crcWord0 := t.hdr.crcWord0, crcWord1 := t.hdr.crcWord1 }
      | .crccheck _ _ =>
        t.hdr =
          { s.hdr with
            crcRem := t.hdr.crcRem, crcWord0 := t.hdr.crcWord0, crcWord1 := t.hdr.crcWord1 }
      | .w10get _ _ | .w10set _ _ | .fareset | .faadd | .faabort | .psinit | .psread | .mbnext
      | .mbtype | .mbextract | .mbrelease => t.hdr = s.hdr) ∧
    ((∀ sp sl, i ≠ .w10get sp sl ∧ i ≠ .crccomp sp sl ∧ i ≠ .crccheck sp sl) → i ≠ .rtpparse →
      i ≠ .hbrmtdec → i ≠ .profres → i ≠ .crcwords → i ≠ .psread → t.ing.ir0 = s.ing.ir0) ∧
    ((∀ sp sl, i ≠ .crccheck sp sl) → i ≠ .profres → i ≠ .crcwords → i ≠ .psread →
      t.ing.ir1 = s.ing.ir1) ∧
    (i ≠ .mbnext → i ≠ .mbextract → t.con.cr0 = s.con.cr0) ∧
    (i ≠ .mbnext → i ≠ .mbtype → t.con.cr1 = s.con.cr1) ∧
    (i ≠ .faadd → i ≠ .psread → t.cnt = s.cnt ∧ t.ev = s.ev) ∧
    (i ≠ .faadd → t.fatal = s.fatal) ∧
    (i ≠ .faadd → i ≠ .fareset → i ≠ .faabort → i ≠ .psread → t.fa = s.fa) ∧
    (i ≠ .psread → i ≠ .psinit → t.ps = s.ps) ∧
    (i ≠ .faadd → i ≠ .mbnext → i ≠ .mbrelease → t.ready = s.ready) ∧
    (i ≠ .faadd → i ≠ .mbextract → i ≠ .mbrelease → t.slots = s.slots)

/-- R450: the 23 codes, and which of them each command that is not held and not gated returns. -/
def Obligations.StatusCodesPerCommand : Prop :=
  ([Status.ok, .illegal, .badArg, .fatal, .malformed, .ptDrop, .discarded, .resync, .appended,
      .complete, .notDefined, .delivered, .packetLost, .unrecoverable, .noData, .duplicate,
      .overrun, .crcPass, .crcFail, .badToken, .tooSmall, .unsupported, .badSlot].map
        fun x => (statusCode x).toNat) =
    [0x00, 0x01, 0x02, 0x03, 0x10, 0x11, 0x12, 0x13, 0x14, 0x15, 0x18, 0x20, 0x21, 0x22, 0x23,
      0x24, 0x25, 0x30, 0x31, 0x40, 0x41, 0x42, 0x43] ∧
  ∀ (i : Instr) (s t : State), s.fatal = none → exec i s = .next t →
    match i.port with
    | .ingest => t = { s with ing.stat.busy := true } ∨
        (t.ing.stat.busy = false ∧ t.ing.stat.code ∈ returnedBy i)
    | .consumer => t = { s with con.stat.busy := true } ∨
        (t.con.stat.busy = false ∧ t.con.stat.code ∈ returnedBy i)

/-- The slot handoff (R123): a slot leaves FREE only by FAADD, becomes READY only by a FAADD that
completes a frame, and leaves READY only by MBRELEASE, which makes it FREE. -/
def Obligations.SlotTransitions : Prop :=
  ∀ (i : Instr) (s t : State), exec i s = .next t →
    t.slots.length = s.slots.length ∧
    ∀ (k : Nat) (x y : Slot), s.slots[k]? = some x → t.slots[k]? = some y → x.state ≠ y.state →
      (i = .faadd ∧ x.state = .free ∧ y.state = .filling) ∨
      (i = .faadd ∧ x.state ≠ .ready ∧ y.state = .ready ∧ t.ing.stat.code = .complete) ∨
      (i = .mbrelease ∧ x.state = .ready ∧ y.state = .free)

/-! ## The 10-bit words -/

/-- R146: words 4g to 4g+3 live in bytes 5g to 5g+4, most significant bit first. -/
def Obligations.WordLayout : Prop :=
  ∀ (s : State) (sp : Space) (g : Nat),
    s.spaceByte sp (5 * g) = (getWord s sp (4 * g)).extractLsb' 2 8 ∧
    s.spaceByte sp (5 * g + 1) =
      (getWord s sp (4 * g)).extractLsb' 0 2 ++ (getWord s sp (4 * g + 1)).extractLsb' 4 6 ∧
    s.spaceByte sp (5 * g + 2) =
      (getWord s sp (4 * g + 1)).extractLsb' 0 4 ++ (getWord s sp (4 * g + 2)).extractLsb' 6 4 ∧
    s.spaceByte sp (5 * g + 3) =
      (getWord s sp (4 * g + 2)).extractLsb' 0 6 ++ (getWord s sp (4 * g + 3)).extractLsb' 8 2 ∧
    s.spaceByte sp (5 * g + 4) = (getWord s sp (4 * g + 3)).extractLsb' 0 8

/-- The properties of R202 (which the spec derives from R200 and R201): the word written is read back,
every other word keeps its value, every byte outside the two keeps its value, and writing a word's
own value leaves every byte unchanged. -/
def Obligations.SetWordLaws : Prop :=
  ∀ (s : State) (sp : Space) (i : Nat) (v : BitVec 10),
    getWord (setWord s sp i v) sp i = v ∧
    (∀ j, j ≠ i → getWord (setWord s sp i v) sp j = getWord s sp j) ∧
    (∀ a, a ≠ sp.base + (i / 4 * 5 + i % 4) → a ≠ sp.base + (i / 4 * 5 + i % 4 + 1) →
      (setWord s sp i v).byteAt a = s.byteAt a) ∧
    (∀ a, (setWord s sp i (getWord s sp i)).byteAt a = s.byteAt a)

/-- R210 with R148: W10GET completes with BADARG for a bad space or a word out of bounds, computed
without wrapping, and otherwise puts the word in IR0 and completes with OK. The first clause is R148's
map of SP and SL to a space. -/
def Obligations.W10getReadsTheWord : Prop :=
  (∀ (c : Config) (sp sl : Nat) (space : Space),
    spaceOf c sp sl = some space ↔
      (sp = 0 ∧ space = .pkt) ∨ (sp = 1 ∧ space = .work) ∨ (sp = 2 ∧ space = .out) ∨
        (sl < c.nslots ∧
          ((sp = 3 ∧ space = .frame sl) ∨ (sp = 4 ∧ space = .halfA sl) ∨
            (sp = 5 ∧ space = .halfB sl)))) ∧
  ∀ (s : State) (sp sl : Nat), s.fatal = none →
    (6 ≤ sp ∨ (3 ≤ sp ∧ sp ≤ 5 ∧ s.config.nslots ≤ sl) →
      exec (.w10get sp sl) s =
        .next { s with ing.stat := { code := .badArg, busy := false, flags := {} } }) ∧
    ∀ space, spaceOf s.config sp sl = some space →
      exec (.w10get sp sl) s =
        .next
          (if space.size s.config ≤ s.ing.ia0.toNat / 4 * 5 + s.ing.ia0.toNat % 4 + 1 then
            { s with ing.stat := { code := .badArg, busy := false, flags := {} } }
          else
            { s with
              ing.ir0 := (getWord s space s.ing.ia0.toNat).setWidth 32
              ing.stat := { code := .ok, busy := false, flags := {} } })

/-- R211: W10SET completes with BADARG for a space but PKT and WORK, a value above 1023 or a word out
of bounds, and otherwise writes the word, the two bytes R201 names and nothing else, and completes
with OK. -/
def Obligations.W10setWritesTheWord : Prop :=
  ∀ (s : State) (sp sl : Nat), s.fatal = none →
    (2 ≤ sp ∨ 1023 < s.ing.ia1.toNat →
      exec (.w10set sp sl) s =
        .next { s with ing.stat := { code := .badArg, busy := false, flags := {} } }) ∧
    (s.ing.ia1.toNat ≤ 1023 → ∀ space, (sp = 0 ∧ space = .pkt) ∨ (sp = 1 ∧ space = .work) →
      (space.size s.config ≤ s.ing.ia0.toNat / 4 * 5 + s.ing.ia0.toNat % 4 + 1 →
        exec (.w10set sp sl) s =
          .next { s with ing.stat := { code := .badArg, busy := false, flags := {} } }) ∧
      (s.ing.ia0.toNat / 4 * 5 + s.ing.ia0.toNat % 4 + 1 < space.size s.config →
        ∃ t, exec (.w10set sp sl) s = .next t ∧
          { t with mem := s.mem } =
            { s with ing.stat := { code := .ok, busy := false, flags := {} } } ∧
          getWord t space s.ing.ia0.toNat = s.ing.ia1.setWidth 10 ∧
          (∀ j, j ≠ s.ing.ia0.toNat → getWord t space j = getWord s space j) ∧
          ∀ a, a ≠ space.base + (s.ing.ia0.toNat / 4 * 5 + s.ing.ia0.toNat % 4) →
            a ≠ space.base + (s.ing.ia0.toNat / 4 * 5 + s.ing.ia0.toNat % 4 + 1) →
            t.byteAt a = s.byteAt a))

/-! ## The header parsers -/

/-- R222: RTPPARSE completes with BADARG past MAX_PKT_BYTES and MALFORMED below 12 bytes, each with
nothing else changed, and otherwise loads the three header registers and IR0. -/
def Obligations.RtpparseLoadsTheHeader : Prop :=
  ∀ s : State, s.fatal = none →
    exec .rtpparse s =
      .next
        (if s.config.maxPktBytes < pktLength s then
          { s with ing.stat := { code := .badArg, busy := false, flags := {} } }
        else if pktLength s < 12 then
          { s with ing.stat := { code := .malformed, busy := false, flags := {} } }
        else
          { s with
            hdr.rtpHdr := be32 s .pkt 0, hdr.rtpTs := be32 s .pkt 4, hdr.rtpSsrc := be32 s .pkt 8
            ing.ir0 := if pktMarker s then 1 else 0
            ing.stat := { code := .ok, busy := false, flags := {} } })

/-- R243: HBRMTDEC, on each of its four outcomes. -/
def Obligations.HbrmtdecDecodesTheHeader : Prop :=
  ∀ s : State, s.fatal = none →
    exec .hbrmtdec s =
      .next
        (if s.config.maxPktBytes < pktLength s then
          { s with ing.stat := { code := .badArg, busy := false, flags := {} } }
        else if pktLength s < 20 then
          { s with ing.stat := { code := .malformed, busy := false, flags := {} } }
        else if pktLength s < 12 + pktHeaderLength s then
          { s with
            hdr.hbW0 := be32 s .pkt 12, hdr.hbW1 := be32 s .pkt 16
            hdr.hbTs :=
              if (be32 s .pkt 12).extractLsb' 5 4 ≠ 0 ∧ 24 ≤ pktLength s then be32 s .pkt 20
              else 0
            hdr.hbHdrLen := BitVec.ofNat 16 (pktHeaderLength s), hdr.hbPayLen := 0
            ing.stat := { code := .malformed, busy := false, flags := {} } }
        else
          { s with
            hdr.hbW0 := be32 s .pkt 12, hdr.hbW1 := be32 s .pkt 16
            hdr.hbTs :=
              if (be32 s .pkt 12).extractLsb' 5 4 ≠ 0 ∧ 24 ≤ pktLength s then be32 s .pkt 20
              else 0
            hdr.hbHdrLen := BitVec.ofNat 16 (pktHeaderLength s)
            hdr.hbPayLen := BitVec.ofNat 16 (pktLength s - 12 - pktHeaderLength s)
            ing.ir0 := ((be32 s .pkt 12).extractLsb' 16 8).setWidth 32
            ing.stat := { code := .ok, busy := false, flags := {} } })

/-- R255 with R39: PROFRES reports what the resolver says of HB_W1, the stage that failed as 1 FRAME,
2 FRATE, 3 SAMPLE or 4 profile table. -/
def Obligations.ProfresReportsTheResolution : Prop :=
  ∀ s : State, s.fatal = none →
    exec .profres s =
      .next
        (match resolveFromHbrmt s.config (s.hdr.hbW1.extractLsb' 28 4)
            (s.hdr.hbW1.extractLsb' 20 8) (s.hdr.hbW1.extractLsb' 12 8)
            (s.hdr.hbW1.extractLsb' 8 4) with
        | .ok (k, p) =>
          { s with
            hdr.profIndex := BitVec.ofNat 8 k, hdr.profStage := 0
            ing.ir0 := BitVec.ofNat 32 k
            ing.ir1 := BitVec.ofNat 32 p.transportFrameSizeBytes
            ing.stat := { code := .ok, busy := false, flags := {} } }
        | .error st =>
          { s with
            hdr.profIndex := 0xFF
            hdr.profStage :=
              match st with
              | .frame => 1
              | .frate => 2
              | .sample => 3
              | .profile => 4
            ing.ir0 := 0xFF, ing.ir1 := 0
            ing.stat := { code := .notDefined, busy := false, flags := {} } })

/-- R251 to R253: the resolver answers the one record with the 7-tuple, or the first lookup that
fails, with SAMPLE 5, 6 and 7 folded to 0, 1 and 2 on an interlaced format and on no other; the stages
FRAME, FRATE, SAMPLE and profile table are coded 1, 2, 3 and 4. -/
def Obligations.ResolverMatchesTheTable : Prop :=
  (stageCode .frame = 1 ∧ stageCode .frate = 2 ∧ stageCode .sample = 3 ∧ stageCode .profile = 4) ∧
  ∀ (c : Config) (map : BitVec 4) (frm frate : BitVec 8) (sample : BitVec 4), c.tableOk = true →
    (c.frame frm = none → resolveFromHbrmt c map frm frate sample = .error .frame) ∧
    ∀ g, c.frame frm = some g →
      (c.frate frate = none → resolveFromHbrmt c map frm frate sample = .error .frate) ∧
      ∀ (rate : Nat) (idx : BitVec 4), c.frate frate = some rate →
        idx = (if g.interlaced = true ∧ sample = 5 then 0
          else if g.interlaced = true ∧ sample = 6 then 1
          else if g.interlaced = true ∧ sample = 7 then 2 else sample) →
        (c.sample idx = none → resolveFromHbrmt c map frm frate sample = .error .sample) ∧
        ∀ depth, c.sample idx = some depth →
          (∀ (k : Nat) (p : Profile),
            resolveFromHbrmt c map frm frate sample = .ok (k, p) ↔
              c.profileTable[k]? = some p ∧ p.activeWidth = g.activePixels ∧
                p.activeHeight = g.activeLines ∧ p.scanlinesNb = g.scanlines ∧
                p.frameRate = rate ∧ p.bitDepth = depth ∧ p.mapCode = map ∧
                p.interlaced = g.interlaced) ∧
          (resolveFromHbrmt c map frm frate sample = .error .profile ↔
            ∀ p ∈ c.profileTable,
              ¬(p.activeWidth = g.activePixels ∧ p.activeHeight = g.activeLines ∧
                p.scanlinesNb = g.scanlines ∧ p.frameRate = rate ∧ p.bitDepth = depth ∧
                p.mapCode = map ∧ p.interlaced = g.interlaced))

/-! ## The CRC engine -/

/-- R280: the remainder of no words is 0, and that of `n + 1` words folds word `start + n·step` into
that of `n`, least significant bit first: the register shifts right by one, and is XORed with 0x23000
when its bit 0 and the word's bit differ. R290: CRCCOMP, with its bound in exact arithmetic; a count
of 0 reads no word. -/
def Obligations.CrccompReturnsTheRemainder : Prop :=
  (∀ (s : State) (sp : Space) (start step : Nat),
    crc18 s sp start 0 step = 0 ∧
    ∀ n : Nat,
      crc18 s sp start (n + 1) step =
        (List.range 10).foldl
          (fun (c : BitVec 18) b =>
            if (c.getLsbD 0 ^^ (getWord s sp (start + n * step)).getLsbD b) = true then
              (c >>> 1) ^^^ 0x23000
            else c >>> 1)
          (crc18 s sp start n step)) ∧
  ∀ (s : State) (sp sl : Nat), s.fatal = none →
    (6 ≤ sp ∨ (3 ≤ sp ∧ sp ≤ 5 ∧ s.config.nslots ≤ sl) →
      exec (.crccomp sp sl) s =
        .next { s with ing.stat := { code := .badArg, busy := false, flags := {} } }) ∧
    ∀ (space : Space) (start count step last : Nat), spaceOf s.config sp sl = some space →
      start = s.ing.ia0.toNat → count = s.ing.ia1.toNat → step = s.ing.ia2.toNat →
      last = start + (count - 1) * step →
      exec (.crccomp sp sl) s =
        .next
          (if 0 < count ∧ space.size s.config ≤ last / 4 * 5 + last % 4 + 1 then
            { s with ing.stat := { code := .badArg, busy := false, flags := {} } }
          else
            { s with
              hdr.crcRem := crc18 s space start count step
              ing.ir0 := (crc18 s space start count step).setWidth 32
              ing.stat := { code := .ok, busy := false, flags := {} } })

/-- R291 with R281: CRCWORDS makes CRC0 from r[8:0] and CRC1 from r[17:9], each with its top bit
inverted above. -/
def Obligations.CrcwordsMakesTransmissionWords : Prop :=
  ∀ s : State, s.fatal = none →
    ∀ c0 c1 : BitVec 10,
      c0 = ~~~(s.hdr.crcRem.extractLsb' 8 1) ++ s.hdr.crcRem.extractLsb' 0 9 →
      c1 = ~~~(s.hdr.crcRem.extractLsb' 17 1) ++ s.hdr.crcRem.extractLsb' 9 9 →
      exec .crcwords s =
        .next
          { s with
            hdr.crcWord0 := c0, hdr.crcWord1 := c1
            ing.ir0 := c0.setWidth 32, ing.ir1 := c1.setWidth 32
            ing.stat := { code := .ok, busy := false, flags := {} } }

/-- R292: CRCCHECK checks the bounds of the two stored words and of the folded range, and passes
exactly when both stored words equal the computed ones in all 10 bits. -/
def Obligations.CrccheckComparesStoredWords : Prop :=
  ∀ (s : State) (sp sl : Nat), s.fatal = none →
    (6 ≤ sp ∨ (3 ≤ sp ∧ sp ≤ 5 ∧ s.config.nslots ≤ sl) →
      exec (.crccheck sp sl) s =
        .next { s with ing.stat := { code := .badArg, busy := false, flags := {} } }) ∧
    ∀ (space : Space) (start count step i0 i1 last : Nat) (r : BitVec 18) (c0 c1 : BitVec 10),
      spaceOf s.config sp sl = some space →
      start = s.ing.ia0.toNat → count = s.ing.ia1.toNat → step = s.ing.ia2.toNat →
      i0 = s.ing.ia3.toNat → i1 = (if step = 0 then i0 + 1 else i0 + step) →
      last = start + (count - 1) * step → r = crc18 s space start count step →
      c0 = ~~~(r.extractLsb' 8 1) ++ r.extractLsb' 0 9 →
      c1 = ~~~(r.extractLsb' 17 1) ++ r.extractLsb' 9 9 →
      exec (.crccheck sp sl) s =
        .next
          (if space.size s.config ≤ i0 / 4 * 5 + i0 % 4 + 1 ∨
              space.size s.config ≤ i1 / 4 * 5 + i1 % 4 + 1 ∨
              (0 < count ∧ space.size s.config ≤ last / 4 * 5 + last % 4 + 1) then
            { s with ing.stat := { code := .badArg, busy := false, flags := {} } }
          else
            { s with
              hdr.crcRem := r, hdr.crcWord0 := c0, hdr.crcWord1 := c1
              ing.ir0 :=
                (getWord s space i1).setWidth 32 <<< 16 ||| (getWord s space i0).setWidth 32
              ing.ir1 := r.setWidth 32
              ing.stat :=
                { code :=
                    if getWord s space i0 = c0 ∧ getWord s space i1 = c1 then .crcPass else .crcFail
                  busy := false, flags := {} } })

/-- R282: the remainder depends only on the bytes the listed words touch, and on start, count and
step. -/
def Obligations.CrcDependsOnTouchedBytes : Prop :=
  ∀ (s t : State) (sp : Space) (start count step : Nat),
    (∀ k < count, ∀ b, b = (start + k * step) / 4 * 5 + (start + k * step) % 4 →
      t.spaceByte sp b = s.spaceByte sp b ∧ t.spaceByte sp (b + 1) = s.spaceByte sp (b + 1)) →
    crc18 t sp start count step = crc18 s sp start count step ∧
      crcTx0 (crc18 t sp start count step) = crcTx0 (crc18 s sp start count step) ∧
      crcTx1 (crc18 t sp start count step) = crcTx1 (crc18 s sp start count step)

/-! ## The frame assembler -/

/-- R312 with R34: FAADD turns a bad packet away, with its counter and its event, and changes nothing
of the assembler. -/
def Obligations.FaaddSkipsBadPackets : Prop :=
  ∀ s : State, s.fatal = none →
    (s.config.maxPktBytes < pktLength s →
      exec .faadd s =
        .next { s with ing.stat := { code := .badArg, busy := false, flags := {} } }) ∧
    (pktLength s ≤ s.config.maxPktBytes → pktLength s < 12 →
      exec .faadd s =
        .next
          { s with
            cnt.malformed := s.cnt.malformed + 1
            ev :=
              { count := s.ev.count + 1
                last := some { kind := .malformed, leg := none, range := none } }
            ing.stat := { code := .malformed, busy := false, flags := {} } }) ∧
    (pktLength s ≤ s.config.maxPktBytes → 12 ≤ pktLength s → pktType s ≠ 98 →
      exec .faadd s =
        .next
          { s with
            cnt.ptDrop := s.cnt.ptDrop + 1
            ev :=
              { count := s.ev.count + 1
                last :=
                  some { kind := .ptDrop, leg := none, range := some (pktSeq s, pktSeq s) } }
            ing.stat := { code := .ptDrop, busy := false, flags := {} } }) ∧
    (pktLength s ≤ s.config.maxPktBytes → 12 ≤ pktLength s → pktType s = 98 →
      (pktLength s < 20 ∨ pktLength s < 12 + pktHeaderLength s) →
      exec .faadd s =
        .next
          { s with
            cnt.malformed := s.cnt.malformed + 1
            ev :=
              { count := s.ev.count + 1
                last :=
                  some { kind := .malformed, leg := none, range := some (pktSeq s, pktSeq s) } }
            ing.stat := { code := .malformed, busy := false, flags := {} } })

/-- A FAADD that owns no slot and finds none FREE holds, and changes nothing but BUSY (R313, R11). -/
def Obligations.FaaddHoldsWithoutFreeSlot : Prop :=
  ∀ s : State, passesTransport s → s.fa.cur = none → (∀ t ∈ s.slots, t.state ≠ .free) →
    exec .faadd s = .next { s with ing.stat.busy := true }

/-- R315, R316: a packet that is not the successor of the last enters WaitingSync, is counted and
recorded with the range it reveals, and sets LOSS; in WaitingSync a packet without the marker is
DISCARDED, and one with it RESYNCs. -/
def Obligations.FaaddResynchronises : Prop :=
  ∀ (s : State) (k : Nat) (slots : List Slot), passesTransport s → takesSlot s k slots →
    (¬ inSequence s →
      exec .faadd s =
        .next
          { s with
            slots := slots
            cnt.seqLoss := s.cnt.seqLoss + 1
            ev :=
              { count := s.ev.count + 1
                last :=
                  some
                    { kind := .seqLoss, leg := none
                      range := some (s.fa.lastSeq + 1, pktSeq s - 1) } }
            fa :=
              { s.fa with
                state := if pktMarker s then .collecting else .waitingSync
                first := false, cur := some (BitVec.ofNat 8 k), lastSeq := pktSeq s
                acc := 0, pktcnt := 0 }
            ing.stat :=
              { code := if pktMarker s then .resync else .discarded, busy := false
                flags := { loss := true } } }) ∧
    (inSequence s → s.fa.state = .waitingSync →
      exec .faadd s =
        .next
          { s with
            slots := slots
            fa :=
              { s.fa with
                state := if pktMarker s then .collecting else .waitingSync
                first := false, cur := some (BitVec.ofNat 8 k), lastSeq := pktSeq s
                acc := if pktMarker s then 0 else s.fa.acc
                pktcnt := if pktMarker s then 0 else s.fa.pktcnt }
            ing.stat :=
              { code := if pktMarker s then .resync else .discarded, busy := false
                flags := {} } })

/-- R318 (with R313, R314, R317): a packet of the frame being collected, or the first after Complete,
that has no marker and fits, has its payload stored at the write cursor of the slot's frame buffer
and is counted; FAADD completes with APPENDED, and nothing else changes. -/
def Obligations.FaaddAppends : Prop :=
  ∀ (s : State) (k : Nat) (slots : List Slot) (bound : Option (BitVec 8)),
    collects s → takesSlot s k slots → bindsTo s bound →
    (startAcc s).toNat + (pktPayload s).length ≤ s.config.frameBufBytes → pktMarker s = false →
    answersWithBytes .faadd s
      { s with
        slots := slots, fa := appendedTo s k bound
        ing.stat := { code := .appended, busy := false, flags := {} } }
      (bytesStored s ((Space.frame k).base + (startAcc s).toNat) (pktPayload s))

/-- R319, R320: a marker packet that fits, whose frame is T bytes or longer by less than this packet's
payload, completes the frame: its slot is published READY with its metadata and a new generation, the
tokens are queued in order, the frame is counted, and the assembler owns no slot. -/
def Obligations.FaaddCompletesTheFrame : Prop :=
  ∀ (s : State) (k : Nat) (slots : List Slot) (x : Slot) (index : BitVec 8) (p : Profile)
    (padding : Nat), collects s → takesSlot s k slots → bindsTo s (some index) →
    (startAcc s).toNat + (pktPayload s).length ≤ s.config.frameBufBytes → pktMarker s = true →
    s.config.profileTable[index.toNat]? = some p → slots[k]? = some x →
    (appendedTo s k (some index)).acc.toNat = p.transportFrameSizeBytes + padding →
    padding < (pktPayload s).length →
    answersWithBytes .faadd s
      { s with
        slots :=
          slots.set k
            { state := .ready, profile := index, padding := BitVec.ofNat 32 padding
              dual := p.multiplexed, demuxed := false, gen := x.gen + 1 }
        ready :=
          s.ready ++
            (if p.multiplexed then
              [mkToken k 0 1 (x.gen + 1), mkToken k 1 1 (x.gen + 1), mkToken k 2 1 (x.gen + 1),
                mkToken k 0 2 (x.gen + 1), mkToken k 1 2 (x.gen + 1), mkToken k 2 2 (x.gen + 1)]
            else
              [mkToken k 0 0 (x.gen + 1), mkToken k 1 0 (x.gen + 1), mkToken k 2 0 (x.gen + 1)])
        cnt.frames := s.cnt.frames + 1
        fa :=
          { appendedTo s k (some index) with
            state := .complete, cur := none, padding := BitVec.ofNat 32 padding
            frameSize :=
              if s.fa.frameSize = 0 then BitVec.ofNat 32 p.transportFrameSizeBytes
              else s.fa.frameSize }
        ing.stat := { code := .complete, busy := false, flags := {} } }
      (bytesStored s ((Space.frame k).base + (startAcc s).toNat) (pktPayload s))

/-- R317, R318, R319 with R455: the three ways FAADD raises Fatal, each with its event, the writes made
before it standing and no frame published: no profile resolves on the first packet of a frame; the
payload would run past the frame buffer; the marker finds a frame of the wrong length. -/
def Obligations.FaaddRaisesFatal : Prop :=
  ∀ (s : State) (k : Nat) (slots : List Slot), collects s → takesSlot s k slots →
    (∀ st, startCount s = 0 → s.fa.profile = none → pktResolves s = .error st →
      exec .faadd s =
        .next
          { s with
            slots := slots
            fatal := some { cause := .profile, stage := stageCode st, seq := pktSeq s }
            ev :=
              { count := s.ev.count + 1
                last :=
                  some { kind := .profileFatal, leg := none, range := some (pktSeq s, pktSeq s) } }
            fa :=
              { s.fa with
                state := .collecting, first := false, cur := some (BitVec.ofNat 8 k)
                lastSeq := pktSeq s, acc := startAcc s, pktcnt := startCount s }
            ing.stat := { code := .fatal, busy := false, flags := {} } }) ∧
    (∀ bound, bindsTo s bound →
      s.config.frameBufBytes < (startAcc s).toNat + (pktPayload s).length →
      exec .faadd s =
        .next
          { s with
            slots := slots
            fatal := some { cause := .overflow, stage := 0, seq := pktSeq s }
            ev :=
              { count := s.ev.count + 1
                last :=
                  some
                    { kind := .overflowFatal, leg := none, range := some (pktSeq s, pktSeq s) } }
            fa :=
              { s.fa with
                state := .collecting, first := false, profile := bound
                cur := some (BitVec.ofNat 8 k), lastSeq := pktSeq s, acc := startAcc s
                pktcnt := startCount s }
            ing.stat := { code := .fatal, busy := false, flags := {} } }) ∧
    (∀ (index : BitVec 8) (p : Profile), bindsTo s (some index) →
      (startAcc s).toNat + (pktPayload s).length ≤ s.config.frameBufBytes →
      pktMarker s = true → s.config.profileTable[index.toNat]? = some p →
      ((appendedTo s k (some index)).acc.toNat < p.transportFrameSizeBytes ∨
        p.transportFrameSizeBytes + (pktPayload s).length ≤
          (appendedTo s k (some index)).acc.toNat) →
      answersWithBytes .faadd s
        { s with
          slots := slots
          fatal := some { cause := .length, stage := 0, seq := pktSeq s }
          ev :=
            { count := s.ev.count + 1
              last :=
                some { kind := .lengthFatal, leg := none, range := some (pktSeq s, pktSeq s) } }
          fa := appendedTo s k (some index)
          ing.stat := { code := .fatal, busy := false, flags := {} } }
        (bytesStored s ((Space.frame k).base + (startAcc s).toNat) (pktPayload s)))

/-- R330: FARESET puts every assembler register but CUR_SLOT at its reset value and changes nothing
else. -/
def Obligations.FaresetResetsTheAssembler : Prop :=
  ∀ s : State, s.fatal = none →
    exec .fareset s =
      .next
        { s with
          fa :=
            { state := .collecting, first := true, profile := none, cur := s.fa.cur
              lastFrcount := 0, lastSeq := 0, acc := 0, pktcnt := 0, padding := 0, frameSize := 0 }
          ing.stat := { code := .ok, busy := false, flags := {} } }

/-- R331: FAABORT enters WaitingSync with nothing collected, and changes nothing else. -/
def Obligations.FaabortEntersWaitingSync : Prop :=
  ∀ s : State, s.fatal = none →
    exec .faabort s =
      .next
        { s with
          fa.state := .waitingSync, fa.acc := 0, fa.pktcnt := 0
          ing.stat := { code := .ok, busy := false, flags := {} } }

/-! ## The protection switch -/

/-- R401, R402: an arrival of a bad length or at a full event queue is dropped, counted and recorded,
and writes no ring; any other is stored in the ring entry of its sequence number, and its event
queued. -/
def Obligations.ArrivalIsStoredOrDropped : Prop :=
  ∀ (s : State) (l : Leg) (bytes : List Byte) (time : Time) (q : Seq), s.fatal = none →
    q = bytes.getD 2 0 ++ bytes.getD 3 0 →
    perform s (.arrive l bytes time) =
      .next
        (if bytes.length < 12 ∨ s.config.maxPktBytes < bytes.length then
          { s with
            cnt.psRxMalformed := s.cnt.psRxMalformed + 1
            ev :=
              { count := s.ev.count + 1
                last := some { kind := .psRxMalformed, leg := some l, range := none } } }
        else if s.config.evqDepth ≤ s.ps.evq.length then
          { s with
            cnt.psEvqDrop := s.cnt.psEvqDrop + 1
            ev :=
              { count := s.ev.count + 1
                last := some { kind := .psEvqDrop, leg := some l, range := some (q, q) } } }
        else
          match l with
          | .leg0 =>
            { s with
              ps.leg0.ring :=
                s.ps.leg0.ring.set (q.toNat % s.config.legCapacity) (some { seq := q, bytes })
              ps.evq := s.ps.evq ++ [{ leg := .leg0, seq := q, time := time }] }
          | .leg1 =>
            { s with
              ps.leg1.ring :=
                s.ps.leg1.ring.set (q.toNat % s.config.legCapacity) (some { seq := q, bytes })
              ps.evq := s.ps.evq ++ [{ leg := .leg1, seq := q, time := time }] })

/-- R420: PSINIT empties the rings and the event queue, forgets the arrivals, the expected sequence and
the held packet, makes leg 0 Master and both legs Offline, keeps PS_THRESH, and changes nothing
else. -/
def Obligations.PsinitResetsTheSwitch : Prop :=
  ∀ s : State, s.fatal = none →
    exec .psinit s =
      .next
        { s with
          ps :=
            { master := .leg0
              leg0 :=
                { ring := List.replicate s.config.legCapacity none, lastArrival := none
                  online := false }
              leg1 :=
                { ring := List.replicate s.config.legCapacity none, lastArrival := none
                  online := false }
              expected := none, pending := 0, held := none, heldSeq := 0, evq := []
              thresh := s.ps.thresh }
          ing.stat := { code := .ok, busy := false, flags := {} } }

/-- R412 with R11: with no gap pending, no held packet and no event, PSREAD holds and changes nothing but
BUSY; that it keeps REPAIRED and SWAP, which R409 clears before the hold on its face, is the model's
reading (assumption 6, DEDUCED). R410 with R413: with a held packet and no gap, it delivers that packet,
with the leg it came from; that PS_HELD_SEQ keeps its value is the model's reading (assumption 15,
DEDUCED). -/
def Obligations.PsreadHoldsOrDeliversTheHeld : Prop :=
  (legIndex .leg0 = 0 ∧ legIndex .leg1 = 1) ∧
  ∀ s : State, s.fatal = none → s.ps.pending = 0 →
    (s.ps.held = none → s.ps.evq = [] → exec .psread s = .next { s with ing.stat.busy := true }) ∧
    (∀ h, s.ps.held = some h → h.packet.bytes.length ≤ s.config.maxPktBytes →
      answersWithBytes .psread s
        { s with
          ps.held := none, ps.expected := some (h.packet.seq + 1)
          ing.pktLen := BitVec.ofNat 16 h.packet.bytes.length
          ing.ir0 := h.packet.seq.setWidth 32
          ing.ir1 := (legIndex h.leg).setWidth 32
          ing.stat := { code := .delivered, busy := false, flags := {} } }
        (bytesStored s Space.pkt.base h.packet.bytes))

/-- R411 with R413: while a gap is pending, PSREAD delivers the expected packet from the Secondary's
ring if it is there, and otherwise gives the gap up: UNRECOVERABLE, the frame aborted, the held
packet expected next. -/
def Obligations.CatchUpRepairsOrGivesUp : Prop :=
  ∀ (s : State) (e : Seq) (sec : Leg), s.fatal = none → s.ps.pending ≠ 0 →
    s.ps.expected = some e → sec ≠ s.ps.master →
    (∀ pkt, lookup s sec e = some pkt → pkt.bytes.length ≤ s.config.maxPktBytes →
      answersWithBytes .psread s
        { s with
          cnt.psRepaired := s.cnt.psRepaired + 1
          ps.expected := some (e + 1), ps.pending := s.ps.pending - 1
          ing.pktLen := BitVec.ofNat 16 pkt.bytes.length
          ing.ir0 := e.setWidth 32, ing.ir1 := (legIndex sec).setWidth 32
          ing.stat := { code := .delivered, busy := false, flags := { repaired := true } } }
        (bytesStored s Space.pkt.base pkt.bytes)) ∧
    (∀ h, lookup s sec e = none → s.ps.held = some h →
      exec .psread s =
        .next
          { s with
            cnt.psUnrecov := s.cnt.psUnrecov + 1
            ev :=
              { count := s.ev.count + 1
                last :=
                  some
                    { kind := .psUnrecov, leg := some sec
                      range := some (e, h.packet.seq - 1) } }
            fa.state := .waitingSync, fa.acc := 0, fa.pktcnt := 0
            ps.pending := 0, ps.expected := some h.packet.seq
            ing.stat := { code := .unrecoverable, busy := false, flags := {} } })

/-- R414: a PSREAD that pops an event refreshes its leg, makes each leg Online exactly when its last
arrival is at most PS_THRESH ticks before the event, swaps the roles exactly when the Master is
Offline, which it counts and shows in SWAP, and leaves a Master that is Online. -/
def Obligations.MasterIsAlwaysAlive : Prop :=
  ∀ (s t : State) (e : ArrivalEvent) (rest : List ArrivalEvent), s.fatal = none →
    s.ps.pending = 0 → s.ps.held = none → s.ps.evq = e :: rest → exec .psread s = .next t →
    t.ps.evq = rest ∧
    (legState t.ps e.leg).lastArrival = some e.time ∧
    (∀ l, l ≠ e.leg → (legState t.ps l).lastArrival = (legState s.ps l).lastArrival) ∧
    (∀ l, (legState t.ps l).online = true ↔
      ∃ a, (legState t.ps l).lastArrival = some a ∧ (e.time - a).toNat ≤ s.ps.thresh.toNat) ∧
    (t.ps.master ≠ s.ps.master ↔ (legState t.ps s.ps.master).online = false) ∧
    (t.ing.stat.flags.swap = true ↔ t.ps.master ≠ s.ps.master) ∧
    t.cnt.psSwap = (if t.ps.master = s.ps.master then s.cnt.psSwap else s.cnt.psSwap + 1) ∧
    (t.ps.master ≠ s.ps.master → t.ing.stat.code = .delivered →
      t.ev = { count := s.ev.count + 1
               last := some { kind := .psSwap, leg := some s.ps.master, range := none } }) ∧
    (legState t.ps t.ps.master).online = true

/-- R415, R416 with R413: what a popped event does once Liveness (`s1`, and `swap` for ISTAT.SWAP) has
run: NODATA for the Secondary's, OVERRUN for a packet overwritten in its ring, and for the Master's
packet a delivery, a DUPLICATE or a PACKET_LOST by its distance from the expected sequence. The first
clause is R402's Lookup: the ring entry of the sequence number, if it holds that number. -/
def Obligations.PsreadClassifiesTheEvent : Prop :=
  (∀ (s : State) (l : Leg) (q : Seq) (pkt : Packet),
    lookup s l q = some pkt ↔
      (match l with
        | .leg0 => s.ps.leg0
        | .leg1 => s.ps.leg1).ring[q.toNat % s.config.legCapacity]? = some (some pkt) ∧
        pkt.seq = q) ∧
  ∀ (s s1 : State) (swap : Bool) (e : ArrivalEvent) (rest : List ArrivalEvent), s.fatal = none →
    s.ps.pending = 0 → s.ps.held = none → s.ps.evq = e :: rest →
    liveness { s with ps.evq := rest } e.leg e.time = (s1, swap) →
    (e.leg ≠ s1.ps.master →
      exec .psread s =
        .next { s1 with ing.stat := { code := .noData, busy := false, flags := { swap } } }) ∧
    (e.leg = s1.ps.master → lookup s1 e.leg e.seq = none →
      exec .psread s =
        .next
          { s1 with
            cnt.psOverrun := s1.cnt.psOverrun + 1
            ev :=
              { count := s1.ev.count + 1
                last :=
                  some { kind := .psOverrun, leg := some e.leg, range := some (e.seq, e.seq) } }
            ing.stat := { code := .overrun, busy := false, flags := { swap } } }) ∧
    (∀ pkt, e.leg = s1.ps.master → lookup s1 e.leg e.seq = some pkt →
      (pkt.bytes.length ≤ s.config.maxPktBytes →
        (s1.ps.expected = none ∨ s1.ps.expected = some e.seq) →
        ∃ t, exec .psread s = .next t ∧
          { t with mem := s1.mem } =
            { s1 with
              ps.expected := some (e.seq + 1)
              ing.pktLen := BitVec.ofNat 16 pkt.bytes.length
              ing.ir0 := e.seq.setWidth 32, ing.ir1 := (legIndex e.leg).setWidth 32
              ing.stat := { code := .delivered, busy := false, flags := { swap } } } ∧
          ∀ a, t.byteAt a = bytesStored s Space.pkt.base pkt.bytes a) ∧
      ∀ x, s1.ps.expected = some x →
        (2 ^ 15 ≤ (e.seq - x).toNat →
          exec .psread s =
            .next
              { s1 with
                cnt.psDup := s1.cnt.psDup + 1
                ev :=
                  { count := s1.ev.count + 1
                    last :=
                      some { kind := .psDup, leg := some e.leg, range := some (e.seq, e.seq) } }
                ing.stat := { code := .duplicate, busy := false, flags := { swap } } }) ∧
        (0 < (e.seq - x).toNat → (e.seq - x).toNat < 2 ^ 15 →
          exec .psread s =
            .next
              { s1 with
                cnt.psGap := s1.cnt.psGap + 1
                ev :=
                  { count := s1.ev.count + 1
                    last :=
                      some { kind := .psGap, leg := some e.leg, range := some (x, e.seq - 1) } }
                ps.pending := e.seq - x
                ps.held := some { packet := { seq := e.seq, bytes := pkt.bytes }, leg := e.leg }
                ps.heldSeq := e.seq
                ing.stat := { code := .packetLost, busy := false, flags := { swap } } }))

/-- A gap of d missing packets on the Master leg, all of them in the Secondary's ring, is repaired
whole: PACKET_LOST, then the d packets in order from the Secondary, each REPAIRED, then the packet
that revealed the gap, with the assembler's frame never aborted (R410, R411, R416; the source's
property S7 of 95_test_vectors.md §1). -/
def Obligations.GapIsRepaired : Prop :=
  ∀ (s : State) (x q : Seq) (time : Time) (rest : List ArrivalEvent) (pkt : Packet)
    (fill : Nat → Packet) (sec : Leg), s.fatal = none → s.ps.pending = 0 → s.ps.held = none →
    s.ps.expected = some x → sec ≠ s.ps.master →
    s.ps.evq = { leg := s.ps.master, seq := q, time := time } :: rest →
    0 < (q - x).toNat → (q - x).toNat < 2 ^ 15 →
    lookup s s.ps.master q = some pkt → pkt.bytes.length ≤ s.config.maxPktBytes →
    (∀ k < (q - x).toNat, lookup s sec (x + BitVec.ofNat 16 k) = some (fill k) ∧
      (fill k).bytes.length ≤ s.config.maxPktBytes) →
    (∃ t, psreads 1 s = some t ∧ t.ing.stat.code = .packetLost ∧
      t.ps.pending = q - x) ∧
    (∀ k < (q - x).toNat, ∃ t, psreads (k + 2) s = some t ∧
      t.ing.stat = { code := .delivered, busy := false, flags := { repaired := true } } ∧
      t.ing.ir0 = (x + BitVec.ofNat 16 k).setWidth 32 ∧
      t.ing.ir1 = (legIndex sec).setWidth 32 ∧
      t.ing.pktLen = BitVec.ofNat 16 (fill k).bytes.length ∧
      t.spaceBytes .pkt 0 (fill k).bytes.length = (fill k).bytes ∧ t.fa = s.fa) ∧
    ∃ t, psreads ((q - x).toNat + 2) s = some t ∧
      t.ing.stat = { code := .delivered, busy := false, flags := {} } ∧
      t.ing.ir0 = q.setWidth 32 ∧ t.ing.ir1 = (legIndex s.ps.master).setWidth 32 ∧
      t.spaceBytes .pkt 0 pkt.bytes.length = pkt.bytes ∧
      t.ps.expected = some (q + 1) ∧ t.ps.pending = 0 ∧ t.ps.held = none ∧ t.ps.evq = rest ∧
      t.fa = s.fa ∧ t.cnt.psGap = s.cnt.psGap + 1 ∧
      t.cnt.psRepaired = s.cnt.psRepaired + (q - x).setWidth 32 ∧
      t.cnt.psUnrecov = s.cnt.psUnrecov

/-! ## The media buffers -/

/-- R370 with R151: MBNEXT holds on an empty ready queue, and otherwise takes its head. -/
def Obligations.MbnextTakesTheHead : Prop :=
  ∀ s : State, s.fatal = none →
    (s.ready = [] → exec .mbnext s = .next { s with con.stat.busy := true }) ∧
    ∀ (w : Word) (rest : List Word), s.ready = w :: rest →
      exec .mbnext s =
        .next
          { s with
            ready := rest
            con.cr0 := w
            con.cr1 := (w.extractLsb' 10 2).setWidth 32 <<< 2 ||| (w.extractLsb' 8 2).setWidth 32
            con.stat := { code := .ok, busy := false } }

/-- R371 with R151: MBTYPE gives a valid token's type, and BADTOKEN with CR1 unchanged for any other
word. R380 over the token's bits: it is valid when SLOT names a READY slot, bits [15:12] are 0, GEN is
the slot's, KIND and PART are at most 2, and PART is Full exactly when the slot is not dual. R150: the
fields of a token, and of one the assembler makes. -/
def Obligations.MbtypeGivesTheType : Prop :=
  (∀ (s : State) (t : Word),
    validToken s t = true ↔
      ∃ x, s.slots[(t.extractLsb' 0 8).toNat]? = some x ∧
        (t.extractLsb' 0 8).toNat < s.config.nslots ∧ t.extractLsb' 12 4 = 0 ∧ x.state = .ready ∧
        t.extractLsb' 16 16 = x.gen ∧ (t.extractLsb' 8 2).toNat ≤ 2 ∧
        (t.extractLsb' 10 2).toNat ≤ 2 ∧ (t.extractLsb' 10 2 = 0 ↔ x.dual = false)) ∧
  (∀ t : Word,
    tokenSlot t = (t.extractLsb' 0 8).toNat ∧ tokenKind t = t.extractLsb' 8 2 ∧
      tokenPart t = t.extractLsb' 10 2) ∧
  (kindVideo = 0 ∧ kindAudio = 1 ∧ kindAncillary = 2 ∧ partFull = 0 ∧ partHalf1 = 1 ∧
    partHalf2 = 2) ∧
  (∀ (k : Nat) (kind part : BitVec 2) (gen : BitVec 16), k < 2 ^ 8 →
    tokenSlot (mkToken k kind part gen) = k ∧ tokenKind (mkToken k kind part gen) = kind ∧
      tokenPart (mkToken k kind part gen) = part ∧
      (mkToken k kind part gen).extractLsb' 12 4 = 0 ∧
      (mkToken k kind part gen).extractLsb' 16 16 = gen) ∧
  ∀ s : State, s.fatal = none →
    exec .mbtype s =
      .next
        (if validToken s s.con.ca0 = true then
          { s with
            con.cr1 :=
              (s.con.ca0.extractLsb' 10 2).setWidth 32 <<< 2 |||
                (s.con.ca0.extractLsb' 8 2).setWidth 32
            con.stat := { code := .ok, busy := false } }
        else { s with con.stat := { code := .badToken, busy := false } })

/-- R386: MBRELEASE frees a READY slot and takes its tokens off the ready queue, the others in their
order; for any other number it completes with BADSLOT. -/
def Obligations.MbreleaseFreesTheSlot : Prop :=
  ∀ s : State, s.fatal = none → s.slots.length = s.config.nslots →
    (¬(∃ x, s.slots[s.con.ca0.toNat]? = some x ∧ x.state = .ready) →
      exec .mbrelease s = .next { s with con.stat := { code := .badSlot, busy := false } }) ∧
    ∀ x, s.slots[s.con.ca0.toNat]? = some x → x.state = .ready →
      exec .mbrelease s =
        .next
          { s with
            slots := s.slots.set s.con.ca0.toNat { x with state := .free }
            ready := s.ready.filter fun w => decide ((w.extractLsb' 0 8).toNat ≠ s.con.ca0.toNat)
            con.stat := { code := .ok, busy := false } }

/-- R381: MBEXTRACT turns away an invalid token with BADTOKEN, an Audio or Ancillary token with
UNSUPPORTED (R383) and a short output with TOOSMALL, each with CR0 at 0. Nothing else changes, but that
the first extraction of a Half token demuxes before either status (R381, R382): the slot's flag is then
set, and no byte outside its half-frame buffers changes. -/
def Obligations.MbextractTurnsAway : Prop :=
  ∀ s : State, s.fatal = none →
    (validToken s s.con.ca0 = false →
      exec .mbextract s =
        .next { s with con.cr0 := 0, con.stat := { code := .badToken, busy := false } }) ∧
    (∀ (x : Slot) (p : Profile), validToken s s.con.ca0 = true →
      s.slots[tokenSlot s.con.ca0]? = some x →
      s.config.profileTable[x.profile.toNat]? = some p →
      (tokenPart s.con.ca0 = partFull ∨ x.demuxed = true) →
      (tokenKind s.con.ca0 ≠ kindVideo →
        exec .mbextract s =
          .next { s with con.cr0 := 0, con.stat := { code := .unsupported, busy := false } }) ∧
      (tokenKind s.con.ca0 = kindVideo →
        (s.con.ca1.toNat < p.activeHeight * p.activeWidthBytes ∨
          s.config.outBytes < p.activeHeight * p.activeWidthBytes) →
        exec .mbextract s =
          .next { s with con.cr0 := 0, con.stat := { code := .tooSmall, busy := false } })) ∧
    ∀ (k : Nat) (x : Slot) (p : Profile) (code : Status), Inv s →
      validToken s s.con.ca0 = true → k = tokenSlot s.con.ca0 → s.slots[k]? = some x →
      s.config.profileTable[x.profile.toNat]? = some p → tokenPart s.con.ca0 ≠ partFull →
      x.demuxed = false →
      (tokenKind s.con.ca0 ≠ kindVideo ∧ code = .unsupported) ∨
        (tokenKind s.con.ca0 = kindVideo ∧ code = .tooSmall ∧
          s.con.ca1.toNat < p.activeHeight * p.activeWidthBytes) →
      ∃ t, exec .mbextract s = .next t ∧
        { t with mem := s.mem, slots := s.slots } =
          { s with con.cr0 := 0, con.stat := { code := code, busy := false } } ∧
        t.slots = s.slots.set k { x with demuxed := true } ∧
        ∀ a, ¬ inSpace s.config (.halfA k) a → ¬ inSpace s.config (.halfB k) a →
          t.byteAt a = s.byteAt a

/-- R381, R384: in a state that meets the invariant, extracting a valid Video token into an output that
fits completes with OK and CR0 = the picture's size; each output line is the active part of its source
line in the frame, or in the half the token names; and OUT past the picture is unchanged. A Full
token's extraction changes nothing but CR0, CSTAT and those OUT bytes. The first three clauses are
R250's quantities, R384's Line (field 1 first, and then by FIELD_PHASE and the parity of the output
line on an interlaced picture), and the buffer each PART reads. -/
def Obligations.MbextractCopiesThePicture : Prop :=
  (∀ p : Profile,
    p.scanlineSizeBytes = p.scanlineWidth * p.componentsNb * p.bitDepth / 8 ∧
      p.frameSizeBytes = p.scanlineSizeBytes * p.scanlinesNb ∧
      p.transportFrameSizeBytes = p.frameSizeBytes * (if p.multiplexed = true then 2 else 1) ∧
      p.xOffsetBytes = (p.scanlineWidth - p.activeWidth) * p.componentsNb * p.bitDepth / 8 ∧
      p.activeWidthBytes = p.activeWidth * p.componentsNb * p.bitDepth / 8) ∧
  (∀ (p : Profile) (j : Nat),
    (p.interlaced = false → ∀ phase, p.line phase j = p.field1First + j) ∧
    (p.interlaced = true →
      p.line .phase0 (2 * j) = p.field1First + j ∧
        p.line .phase0 (2 * j + 1) = p.field2First + j ∧
        p.line .phase1 (2 * j) = p.field2First + j ∧
        p.line .phase1 (2 * j + 1) = p.field1First + j)) ∧
  (∀ t : Word,
    (t.extractLsb' 10 2 = 0 → tokenSpace t = .frame (t.extractLsb' 0 8).toNat) ∧
      (t.extractLsb' 10 2 = 1 → tokenSpace t = .halfA (t.extractLsb' 0 8).toNat) ∧
      (t.extractLsb' 10 2 = 2 → tokenSpace t = .halfB (t.extractLsb' 0 8).toNat)) ∧
  ∀ (s : State) (x : Slot) (p : Profile), Inv s → s.fatal = none →
    validToken s s.con.ca0 = true → tokenKind s.con.ca0 = kindVideo →
    s.slots[tokenSlot s.con.ca0]? = some x → s.config.profileTable[x.profile.toNat]? = some p →
    p.activeHeight * p.activeWidthBytes ≤ s.con.ca1.toNat →
    ∃ t, exec .mbextract s = .next t ∧
      t.con = { s.con with
                cr0 := BitVec.ofNat 32 (p.activeHeight * p.activeWidthBytes)
                stat := { code := .ok, busy := false } } ∧
      (∀ j < p.activeHeight, ∀ b < p.activeWidthBytes,
        t.spaceByte .out (j * p.activeWidthBytes + b) =
          t.spaceByte (tokenSpace s.con.ca0)
            (p.line s.config.fieldPhase j * p.scanlineSizeBytes + p.xOffsetBytes + b)) ∧
      (∀ o < s.config.outBytes, p.activeHeight * p.activeWidthBytes ≤ o →
        t.spaceByte .out o = s.spaceByte .out o) ∧
      (tokenPart s.con.ca0 = partFull →
        { t with mem := s.mem, con := s.con } = s ∧
          ∀ a, ¬ inSpace s.config .out a → t.byteAt a = s.byteAt a)

/-- R382: in a state that meets the invariant, the first extraction of a Half token of any kind splits
every 5-byte group of the transport frame, its words going to the halves as DEMUX_PATTERN says, and
sets the slot's flag; the frame and every byte past the halves' T/2 bytes but OUT keep their value. A
later extraction leaves the halves alone. -/
def Obligations.FirstHalfExtractionDemuxes : Prop :=
  ∀ (s : State) (k : Nat) (x : Slot) (p : Profile), Inv s → s.fatal = none →
    validToken s s.con.ca0 = true → tokenPart s.con.ca0 ≠ partFull →
    k = tokenSlot s.con.ca0 → s.slots[k]? = some x →
    s.config.profileTable[x.profile.toNat]? = some p →
    ∃ t, exec .mbextract s = .next t ∧
      t.slots = s.slots.set k { x with demuxed := true } ∧
      (x.demuxed = false →
        ∀ g < p.transportFrameSizeBytes / 5,
          getWord t (.halfA k) (2 * g) = getWord s (.frame k) (4 * g) ∧
          getWord t (.halfB k) (2 * g + 1) = getWord s (.frame k) (4 * g + 3) ∧
          (match s.config.demuxPattern with
            | .abab =>
              getWord t (.halfA k) (2 * g + 1) = getWord s (.frame k) (4 * g + 2) ∧
                getWord t (.halfB k) (2 * g) = getWord s (.frame k) (4 * g + 1)
            | .aabb =>
              getWord t (.halfA k) (2 * g + 1) = getWord s (.frame k) (4 * g + 1) ∧
                getWord t (.halfB k) (2 * g) = getWord s (.frame k) (4 * g + 2))) ∧
      (∀ a, ¬ inSpace s.config .out a →
        (x.demuxed = true ∨
          ((∀ o < p.transportFrameSizeBytes / 2, a ≠ (Space.halfA k).base + o) ∧
            ∀ o < p.transportFrameSizeBytes / 2, a ≠ (Space.halfB k).base + o)) →
        t.byteAt a = s.byteAt a)

/-! ## The host -/

/-- R108, R102, R90: a host read changes nothing but what the host holds; a read of an undecoded window,
of a register offset no register occupies, or of a byte past its space gives 0; a write of any width to
any of these, to a read-only window, or to a read-only register has no effect. R34 to R36, R87, R90: a
write to PKT_LEN, IA0 to IA3, PS_THRESH, CA0 or CA1 stores the value, PKT_LEN its low 16 bits, and
changes nothing else. -/
def Obligations.UndecodedAccessesAreInert : Prop :=
  (∀ (s : State) (w : Width) (addr : Nat),
    perform s (.read w addr) = .next { s with hostData := hostRead s w addr }) ∧
  (∀ (s : State) (w : Width) (a : Nat) (v : Word), a < 2 ^ 32 →
    ((a / 2 ^ 24 ≠ 0 ∧ windowSpace s.config (a / 2 ^ 24) = none) ∨
      (a / 2 ^ 24 = 0 ∧ (w ≠ .word ∨ a % 4 ≠ 0 ∨ 0x1000 ≤ a ∨
        ((∀ e ∈ registerWords s, a ≠ e.1) ∧
          ∀ k < s.config.nslots, a ≠ 0x300 + 8 * k ∧ a ≠ 0x304 + 8 * k)))) →
    hostRead s w (s.config.hostBase + a) = 0 ∧
      (w = .byte →
        perform s (.writeByte (s.config.hostBase + a) (v.setWidth 8)) = .next s) ∧
      (w = .half →
        perform s (.writeHalf (s.config.hostBase + a) (v.setWidth 16)) = .next s) ∧
      (w = .word → perform s (.writeWord (s.config.hostBase + a) v) = .next s)) ∧
  (∀ (s : State) (sp : Space) (w o a : Nat), windowSpace s.config w = some sp → w < 2 ^ 8 →
    o < 2 ^ 24 → a = s.config.hostBase + (w * 2 ^ 24 + o) →
    (sp.size s.config ≤ o → ∀ width, width = .byte ∨ o + 4 ≤ 2 ^ 24 → hostRead s width a = 0) ∧
    (sp.size s.config ≤ o ∨ ¬(sp = .pkt ∨ sp = .work) →
      (∀ v, perform s (.writeByte a v) = .next s) ∧
        (o + 4 ≤ 2 ^ 24 →
          (∀ v, perform s (.writeHalf a v) = .next s) ∧
            ∀ v, perform s (.writeWord a v) = .next s))) ∧
  (∀ (s : State) (a : Nat) (v : Word), a < 0x1000 →
    a ∉ [0x000, 0x008, 0x010, 0x014, 0x018, 0x01C, 0x030, 0x200, 0x210, 0x214] →
    perform s (.writeWord (s.config.hostBase + a) v) = .next s) ∧
  ∀ (s : State) (v : Word),
    perform s (.writeWord (s.config.hostBase + 0x008) v) =
        .next { s with ing.pktLen := v.extractLsb' 0 16 } ∧
      perform s (.writeWord (s.config.hostBase + 0x010) v) = .next { s with ing.ia0 := v } ∧
      perform s (.writeWord (s.config.hostBase + 0x014) v) = .next { s with ing.ia1 := v } ∧
      perform s (.writeWord (s.config.hostBase + 0x018) v) = .next { s with ing.ia2 := v } ∧
      perform s (.writeWord (s.config.hostBase + 0x01C) v) = .next { s with ing.ia3 := v } ∧
      perform s (.writeWord (s.config.hostBase + 0x030) v) = .next { s with ps.thresh := v } ∧
      perform s (.writeWord (s.config.hostBase + 0x210) v) = .next { s with con.ca0 := v } ∧
      perform s (.writeWord (s.config.hostBase + 0x214) v) = .next { s with con.ca1 := v }

/-- R101: a host read at a register's offset gives that register, its fields where 10_state.md puts them
(R32 to R62, R85 to R88; that EXPECTED reads 0 while EXP_VALID = 0 is the model's reading, assumption
15, DEDUCED; that PS_EVQ_COUNT wraps at 2^32 entries is the model's choice, assumption 22), and each window leads to its buffer (R100). R104, R128: in a buffer window a read is its
single-byte reads, the byte at the lowest offset in the most significant lane (the value zero-extended
to 32 bits: assumption 10), and a wider write is its single-byte writes in order; and a byte the host
writes to PKT or WORK is what it then reads, every other byte being as before. -/
def Obligations.HostSeesBytesBigEndian : Prop :=
  (∀ s : State, ∀ e ∈ registerWords s, hostRead s .word (s.config.hostBase + e.1) = e.2) ∧
  (∀ (s : State) (k : Nat), k < 416 →
    (∀ x, k < s.config.nslots → s.slots[k]? = some x →
      hostRead s .word (s.config.hostBase + (0x300 + 8 * k)) = slotInfoLayout x ∧
        hostRead s .word (s.config.hostBase + (0x304 + 8 * k)) = x.padding) ∧
    (s.config.nslots ≤ k →
      hostRead s .word (s.config.hostBase + (0x300 + 8 * k)) = 0 ∧
        hostRead s .word (s.config.hostBase + (0x304 + 8 * k)) = 0)) ∧
  (∀ (c : Config) (w : Nat) (sp : Space), c.nslots ≤ 16 →
    (windowSpace c w = some sp ↔
      (w = 0x01 ∧ sp = .pkt) ∨ (w = 0x02 ∧ sp = .work) ∨ (w = 0x03 ∧ sp = .out) ∨
        ∃ k < c.nslots,
          (w = 0x10 + k ∧ sp = .frame k) ∨ (w = 0x20 + k ∧ sp = .halfA k) ∨
            (w = 0x30 + k ∧ sp = .halfB k))) ∧
  (∀ c : Config,
    Space.pkt.size c = c.maxPktBytes ∧ Space.work.size c = c.workBytes ∧
      Space.out.size c = c.outBytes ∧
      ∀ k < c.nslots,
        (Space.frame k).size c = c.frameBufBytes ∧ (Space.halfA k).size c = c.halfBufBytes ∧
          (Space.halfB k).size c = c.halfBufBytes) ∧
  (∀ (s : State) (sp : Space) (w o a : Nat), windowSpace s.config w = some sp → w < 2 ^ 8 →
    o + 4 ≤ 2 ^ 24 → a = s.config.hostBase + (w * 2 ^ 24 + o) →
    (o < sp.size s.config → hostRead s .byte a = (s.spaceByte sp o).setWidth 32) ∧
      hostRead s .half a =
        hostRead s .byte a <<< 8 ||| hostRead s .byte (a + 1) ∧
      hostRead s .word a =
        hostRead s .byte a <<< 24 ||| hostRead s .byte (a + 1) <<< 16 |||
          hostRead s .byte (a + 2) <<< 8 ||| hostRead s .byte (a + 3) ∧
      (o + 4 ≤ sp.size s.config → hostRead s .word a = be32 s sp o) ∧
      (∀ v : BitVec 16, ∃ t, perform s (.writeHalf a v) = .next t ∧
        byteWrites s a [v.extractLsb' 8 8, v.extractLsb' 0 8] = some t) ∧
      ∀ v : Word, ∃ t, perform s (.writeWord a v) = .next t ∧
        byteWrites s a
          [v.extractLsb' 24 8, v.extractLsb' 16 8, v.extractLsb' 8 8, v.extractLsb' 0 8] =
            some t) ∧
  (∀ (s : State) (sp : Space) (o : Nat) (v : Byte), sp = .pkt ∨ sp = .work →
    o < sp.size s.config → o < 2 ^ 24 →
    ∃ t, perform s (.writeByte (s.config.hostBase + (sp.base + o)) v) = .next t ∧
      { t with mem := s.mem } = s ∧ t.spaceByte sp o = v ∧
      hostRead t .byte (s.config.hostBase + (sp.base + o)) = v.setWidth 32 ∧
      ∀ a, a ≠ sp.base + o → t.byteAt a = s.byteAt a) ∧
  (∀ (s : State) (sp : Space) (o : Nat) (v : Word), sp = .pkt ∨ sp = .work →
    o + 4 ≤ sp.size s.config → o + 4 ≤ 2 ^ 24 →
    ∃ t, perform s (.writeWord (s.config.hostBase + (sp.base + o)) v) = .next t ∧
      { t with mem := s.mem } = s ∧ be32 t sp o = v ∧
      hostRead t .word (s.config.hostBase + (sp.base + o)) = v ∧
      ∀ a, ¬(sp.base + o ≤ a ∧ a < sp.base + o + 4) → t.byteAt a = s.byteAt a)
end

