-- ==== Sys2Proof/Laws/State.lean ====
section
/-! SUPPORT. What each named update of the state leaves alone and what it writes: one lemma per field
per update, true by `rfl`, so that no later proof unfolds an update. -/

namespace Sys2Proof.Machine

open Sys2Proof

/-! ## recordEvent -/

@[simp] theorem recordEvent_config (s : State) (k : EventKind) (l : Option Leg) (r : Option (Seq × Seq)) :
    (recordEvent s k l r).config = s.config := rfl

@[simp] theorem recordEvent_agenda (s : State) (k : EventKind) (l : Option Leg) (r : Option (Seq × Seq)) :
    (recordEvent s k l r).agenda = s.agenda := rfl

@[simp] theorem recordEvent_moves (s : State) (k : EventKind) (l : Option Leg) (r : Option (Seq × Seq)) :
    (recordEvent s k l r).moves = s.moves := rfl

@[simp] theorem recordEvent_epoch (s : State) (k : EventKind) (l : Option Leg) (r : Option (Seq × Seq)) :
    (recordEvent s k l r).epoch = s.epoch := rfl

@[simp] theorem recordEvent_hostData (s : State) (k : EventKind) (l : Option Leg) (r : Option (Seq × Seq)) :
    (recordEvent s k l r).hostData = s.hostData := rfl

@[simp] theorem recordEvent_ing (s : State) (k : EventKind) (l : Option Leg) (r : Option (Seq × Seq)) :
    (recordEvent s k l r).ing = s.ing := rfl

@[simp] theorem recordEvent_con (s : State) (k : EventKind) (l : Option Leg) (r : Option (Seq × Seq)) :
    (recordEvent s k l r).con = s.con := rfl

@[simp] theorem recordEvent_hdr (s : State) (k : EventKind) (l : Option Leg) (r : Option (Seq × Seq)) :
    (recordEvent s k l r).hdr = s.hdr := rfl

@[simp] theorem recordEvent_fa (s : State) (k : EventKind) (l : Option Leg) (r : Option (Seq × Seq)) :
    (recordEvent s k l r).fa = s.fa := rfl

@[simp] theorem recordEvent_fatal (s : State) (k : EventKind) (l : Option Leg) (r : Option (Seq × Seq)) :
    (recordEvent s k l r).fatal = s.fatal := rfl

@[simp] theorem recordEvent_ps (s : State) (k : EventKind) (l : Option Leg) (r : Option (Seq × Seq)) :
    (recordEvent s k l r).ps = s.ps := rfl

@[simp] theorem recordEvent_cnt (s : State) (k : EventKind) (l : Option Leg) (r : Option (Seq × Seq)) :
    (recordEvent s k l r).cnt = s.cnt := rfl

@[simp] theorem recordEvent_slots (s : State) (k : EventKind) (l : Option Leg) (r : Option (Seq × Seq)) :
    (recordEvent s k l r).slots = s.slots := rfl

@[simp] theorem recordEvent_ready (s : State) (k : EventKind) (l : Option Leg) (r : Option (Seq × Seq)) :
    (recordEvent s k l r).ready = s.ready := rfl

@[simp] theorem recordEvent_mem (s : State) (k : EventKind) (l : Option Leg) (r : Option (Seq × Seq)) :
    (recordEvent s k l r).mem = s.mem := rfl

/-! ## raiseFatal -/

@[simp] theorem raiseFatal_config (s : State) (c : FatalCause) (st : BitVec 3) (q : Seq) :
    (raiseFatal s c st q).config = s.config := rfl

@[simp] theorem raiseFatal_agenda (s : State) (c : FatalCause) (st : BitVec 3) (q : Seq) :
    (raiseFatal s c st q).agenda = s.agenda := rfl

@[simp] theorem raiseFatal_moves (s : State) (c : FatalCause) (st : BitVec 3) (q : Seq) :
    (raiseFatal s c st q).moves = s.moves := rfl

@[simp] theorem raiseFatal_epoch (s : State) (c : FatalCause) (st : BitVec 3) (q : Seq) :
    (raiseFatal s c st q).epoch = s.epoch := rfl

@[simp] theorem raiseFatal_hostData (s : State) (c : FatalCause) (st : BitVec 3) (q : Seq) :
    (raiseFatal s c st q).hostData = s.hostData := rfl

@[simp] theorem raiseFatal_ing (s : State) (c : FatalCause) (st : BitVec 3) (q : Seq) :
    (raiseFatal s c st q).ing = s.ing := rfl

@[simp] theorem raiseFatal_con (s : State) (c : FatalCause) (st : BitVec 3) (q : Seq) :
    (raiseFatal s c st q).con = s.con := rfl

@[simp] theorem raiseFatal_hdr (s : State) (c : FatalCause) (st : BitVec 3) (q : Seq) :
    (raiseFatal s c st q).hdr = s.hdr := rfl

@[simp] theorem raiseFatal_fa (s : State) (c : FatalCause) (st : BitVec 3) (q : Seq) :
    (raiseFatal s c st q).fa = s.fa := rfl

@[simp] theorem raiseFatal_ps (s : State) (c : FatalCause) (st : BitVec 3) (q : Seq) :
    (raiseFatal s c st q).ps = s.ps := rfl

@[simp] theorem raiseFatal_cnt (s : State) (c : FatalCause) (st : BitVec 3) (q : Seq) :
    (raiseFatal s c st q).cnt = s.cnt := rfl

@[simp] theorem raiseFatal_ev (s : State) (c : FatalCause) (st : BitVec 3) (q : Seq) :
    (raiseFatal s c st q).ev = s.ev := rfl

@[simp] theorem raiseFatal_slots (s : State) (c : FatalCause) (st : BitVec 3) (q : Seq) :
    (raiseFatal s c st q).slots = s.slots := rfl

@[simp] theorem raiseFatal_ready (s : State) (c : FatalCause) (st : BitVec 3) (q : Seq) :
    (raiseFatal s c st q).ready = s.ready := rfl

@[simp] theorem raiseFatal_mem (s : State) (c : FatalCause) (st : BitVec 3) (q : Seq) :
    (raiseFatal s c st q).mem = s.mem := rfl

/-! ## geometryFatal -/

@[simp] theorem geometryFatal_config (s : State) (k : EventKind) (c : FatalCause) (st : BitVec 3) (q : Seq) :
    (geometryFatal s k c st q).config = s.config := rfl

@[simp] theorem geometryFatal_agenda (s : State) (k : EventKind) (c : FatalCause) (st : BitVec 3) (q : Seq) :
    (geometryFatal s k c st q).agenda = s.agenda := rfl

@[simp] theorem geometryFatal_moves (s : State) (k : EventKind) (c : FatalCause) (st : BitVec 3) (q : Seq) :
    (geometryFatal s k c st q).moves = s.moves := rfl

@[simp] theorem geometryFatal_epoch (s : State) (k : EventKind) (c : FatalCause) (st : BitVec 3) (q : Seq) :
    (geometryFatal s k c st q).epoch = s.epoch := rfl

@[simp] theorem geometryFatal_hostData (s : State) (k : EventKind) (c : FatalCause) (st : BitVec 3) (q : Seq) :
    (geometryFatal s k c st q).hostData = s.hostData := rfl

@[simp] theorem geometryFatal_ing (s : State) (k : EventKind) (c : FatalCause) (st : BitVec 3) (q : Seq) :
    (geometryFatal s k c st q).ing = s.ing := rfl

@[simp] theorem geometryFatal_con (s : State) (k : EventKind) (c : FatalCause) (st : BitVec 3) (q : Seq) :
    (geometryFatal s k c st q).con = s.con := rfl

@[simp] theorem geometryFatal_hdr (s : State) (k : EventKind) (c : FatalCause) (st : BitVec 3) (q : Seq) :
    (geometryFatal s k c st q).hdr = s.hdr := rfl

@[simp] theorem geometryFatal_fa (s : State) (k : EventKind) (c : FatalCause) (st : BitVec 3) (q : Seq) :
    (geometryFatal s k c st q).fa = s.fa := rfl

@[simp] theorem geometryFatal_ps (s : State) (k : EventKind) (c : FatalCause) (st : BitVec 3) (q : Seq) :
    (geometryFatal s k c st q).ps = s.ps := rfl

@[simp] theorem geometryFatal_cnt (s : State) (k : EventKind) (c : FatalCause) (st : BitVec 3) (q : Seq) :
    (geometryFatal s k c st q).cnt = s.cnt := rfl

@[simp] theorem geometryFatal_slots (s : State) (k : EventKind) (c : FatalCause) (st : BitVec 3) (q : Seq) :
    (geometryFatal s k c st q).slots = s.slots := rfl

@[simp] theorem geometryFatal_ready (s : State) (k : EventKind) (c : FatalCause) (st : BitVec 3) (q : Seq) :
    (geometryFatal s k c st q).ready = s.ready := rfl

@[simp] theorem geometryFatal_mem (s : State) (k : EventKind) (c : FatalCause) (st : BitVec 3) (q : Seq) :
    (geometryFatal s k c st q).mem = s.mem := rfl

/-! ## completeIngest -/

@[simp] theorem completeIngest_config (s : State) (c : Status) (f : CmdFlags) :
    (completeIngest s c f).config = s.config := rfl

@[simp] theorem completeIngest_agenda (s : State) (c : Status) (f : CmdFlags) :
    (completeIngest s c f).agenda = s.agenda := rfl

@[simp] theorem completeIngest_moves (s : State) (c : Status) (f : CmdFlags) :
    (completeIngest s c f).moves = s.moves := rfl

@[simp] theorem completeIngest_epoch (s : State) (c : Status) (f : CmdFlags) :
    (completeIngest s c f).epoch = s.epoch := rfl

@[simp] theorem completeIngest_hostData (s : State) (c : Status) (f : CmdFlags) :
    (completeIngest s c f).hostData = s.hostData := rfl

@[simp] theorem completeIngest_con (s : State) (c : Status) (f : CmdFlags) :
    (completeIngest s c f).con = s.con := rfl

@[simp] theorem completeIngest_hdr (s : State) (c : Status) (f : CmdFlags) :
    (completeIngest s c f).hdr = s.hdr := rfl

@[simp] theorem completeIngest_fa (s : State) (c : Status) (f : CmdFlags) :
    (completeIngest s c f).fa = s.fa := rfl

@[simp] theorem completeIngest_fatal (s : State) (c : Status) (f : CmdFlags) :
    (completeIngest s c f).fatal = s.fatal := rfl

@[simp] theorem completeIngest_ps (s : State) (c : Status) (f : CmdFlags) :
    (completeIngest s c f).ps = s.ps := rfl

@[simp] theorem completeIngest_cnt (s : State) (c : Status) (f : CmdFlags) :
    (completeIngest s c f).cnt = s.cnt := rfl

@[simp] theorem completeIngest_ev (s : State) (c : Status) (f : CmdFlags) :
    (completeIngest s c f).ev = s.ev := rfl

@[simp] theorem completeIngest_slots (s : State) (c : Status) (f : CmdFlags) :
    (completeIngest s c f).slots = s.slots := rfl

@[simp] theorem completeIngest_ready (s : State) (c : Status) (f : CmdFlags) :
    (completeIngest s c f).ready = s.ready := rfl

@[simp] theorem completeIngest_mem (s : State) (c : Status) (f : CmdFlags) :
    (completeIngest s c f).mem = s.mem := rfl

/-! ## completeConsumer -/

@[simp] theorem completeConsumer_config (s : State) (c : Status) :
    (completeConsumer s c).config = s.config := rfl

@[simp] theorem completeConsumer_agenda (s : State) (c : Status) :
    (completeConsumer s c).agenda = s.agenda := rfl

@[simp] theorem completeConsumer_moves (s : State) (c : Status) :
    (completeConsumer s c).moves = s.moves := rfl

@[simp] theorem completeConsumer_epoch (s : State) (c : Status) :
    (completeConsumer s c).epoch = s.epoch := rfl

@[simp] theorem completeConsumer_hostData (s : State) (c : Status) :
    (completeConsumer s c).hostData = s.hostData := rfl

@[simp] theorem completeConsumer_ing (s : State) (c : Status) :
    (completeConsumer s c).ing = s.ing := rfl

@[simp] theorem completeConsumer_hdr (s : State) (c : Status) :
    (completeConsumer s c).hdr = s.hdr := rfl

@[simp] theorem completeConsumer_fa (s : State) (c : Status) :
    (completeConsumer s c).fa = s.fa := rfl

@[simp] theorem completeConsumer_fatal (s : State) (c : Status) :
    (completeConsumer s c).fatal = s.fatal := rfl

@[simp] theorem completeConsumer_ps (s : State) (c : Status) :
    (completeConsumer s c).ps = s.ps := rfl

@[simp] theorem completeConsumer_cnt (s : State) (c : Status) :
    (completeConsumer s c).cnt = s.cnt := rfl

@[simp] theorem completeConsumer_ev (s : State) (c : Status) :
    (completeConsumer s c).ev = s.ev := rfl

@[simp] theorem completeConsumer_slots (s : State) (c : Status) :
    (completeConsumer s c).slots = s.slots := rfl

@[simp] theorem completeConsumer_ready (s : State) (c : Status) :
    (completeConsumer s c).ready = s.ready := rfl

@[simp] theorem completeConsumer_mem (s : State) (c : Status) :
    (completeConsumer s c).mem = s.mem := rfl

/-! ## holdIngest -/

@[simp] theorem holdIngest_config (s : State) :
    (holdIngest s).config = s.config := rfl

@[simp] theorem holdIngest_agenda (s : State) :
    (holdIngest s).agenda = s.agenda := rfl

@[simp] theorem holdIngest_moves (s : State) :
    (holdIngest s).moves = s.moves := rfl

@[simp] theorem holdIngest_epoch (s : State) :
    (holdIngest s).epoch = s.epoch := rfl

@[simp] theorem holdIngest_hostData (s : State) :
    (holdIngest s).hostData = s.hostData := rfl

@[simp] theorem holdIngest_con (s : State) :
    (holdIngest s).con = s.con := rfl

@[simp] theorem holdIngest_hdr (s : State) :
    (holdIngest s).hdr = s.hdr := rfl

@[simp] theorem holdIngest_fa (s : State) :
    (holdIngest s).fa = s.fa := rfl

@[simp] theorem holdIngest_fatal (s : State) :
    (holdIngest s).fatal = s.fatal := rfl

@[simp] theorem holdIngest_ps (s : State) :
    (holdIngest s).ps = s.ps := rfl

@[simp] theorem holdIngest_cnt (s : State) :
    (holdIngest s).cnt = s.cnt := rfl

@[simp] theorem holdIngest_ev (s : State) :
    (holdIngest s).ev = s.ev := rfl

@[simp] theorem holdIngest_slots (s : State) :
    (holdIngest s).slots = s.slots := rfl

@[simp] theorem holdIngest_ready (s : State) :
    (holdIngest s).ready = s.ready := rfl

@[simp] theorem holdIngest_mem (s : State) :
    (holdIngest s).mem = s.mem := rfl

/-! ## holdConsumer -/

@[simp] theorem holdConsumer_config (s : State) :
    (holdConsumer s).config = s.config := rfl

@[simp] theorem holdConsumer_agenda (s : State) :
    (holdConsumer s).agenda = s.agenda := rfl

@[simp] theorem holdConsumer_moves (s : State) :
    (holdConsumer s).moves = s.moves := rfl

@[simp] theorem holdConsumer_epoch (s : State) :
    (holdConsumer s).epoch = s.epoch := rfl

@[simp] theorem holdConsumer_hostData (s : State) :
    (holdConsumer s).hostData = s.hostData := rfl

@[simp] theorem holdConsumer_ing (s : State) :
    (holdConsumer s).ing = s.ing := rfl

@[simp] theorem holdConsumer_hdr (s : State) :
    (holdConsumer s).hdr = s.hdr := rfl

@[simp] theorem holdConsumer_fa (s : State) :
    (holdConsumer s).fa = s.fa := rfl

@[simp] theorem holdConsumer_fatal (s : State) :
    (holdConsumer s).fatal = s.fatal := rfl

@[simp] theorem holdConsumer_ps (s : State) :
    (holdConsumer s).ps = s.ps := rfl

@[simp] theorem holdConsumer_cnt (s : State) :
    (holdConsumer s).cnt = s.cnt := rfl

@[simp] theorem holdConsumer_ev (s : State) :
    (holdConsumer s).ev = s.ev := rfl

@[simp] theorem holdConsumer_slots (s : State) :
    (holdConsumer s).slots = s.slots := rfl

@[simp] theorem holdConsumer_ready (s : State) :
    (holdConsumer s).ready = s.ready := rfl

@[simp] theorem holdConsumer_mem (s : State) :
    (holdConsumer s).mem = s.mem := rfl

/-! ## setSpaceByte -/

@[simp] theorem setSpaceByte_config (s : State) (sp : Space) (o : Nat) (v : Byte) :
    (s.setSpaceByte sp o v).config = s.config := rfl

@[simp] theorem setSpaceByte_agenda (s : State) (sp : Space) (o : Nat) (v : Byte) :
    (s.setSpaceByte sp o v).agenda = s.agenda := rfl

@[simp] theorem setSpaceByte_moves (s : State) (sp : Space) (o : Nat) (v : Byte) :
    (s.setSpaceByte sp o v).moves = s.moves := rfl

@[simp] theorem setSpaceByte_epoch (s : State) (sp : Space) (o : Nat) (v : Byte) :
    (s.setSpaceByte sp o v).epoch = s.epoch := rfl

@[simp] theorem setSpaceByte_hostData (s : State) (sp : Space) (o : Nat) (v : Byte) :
    (s.setSpaceByte sp o v).hostData = s.hostData := rfl

@[simp] theorem setSpaceByte_ing (s : State) (sp : Space) (o : Nat) (v : Byte) :
    (s.setSpaceByte sp o v).ing = s.ing := rfl

@[simp] theorem setSpaceByte_con (s : State) (sp : Space) (o : Nat) (v : Byte) :
    (s.setSpaceByte sp o v).con = s.con := rfl

@[simp] theorem setSpaceByte_hdr (s : State) (sp : Space) (o : Nat) (v : Byte) :
    (s.setSpaceByte sp o v).hdr = s.hdr := rfl

@[simp] theorem setSpaceByte_fa (s : State) (sp : Space) (o : Nat) (v : Byte) :
    (s.setSpaceByte sp o v).fa = s.fa := rfl

@[simp] theorem setSpaceByte_fatal (s : State) (sp : Space) (o : Nat) (v : Byte) :
    (s.setSpaceByte sp o v).fatal = s.fatal := rfl

@[simp] theorem setSpaceByte_ps (s : State) (sp : Space) (o : Nat) (v : Byte) :
    (s.setSpaceByte sp o v).ps = s.ps := rfl

@[simp] theorem setSpaceByte_cnt (s : State) (sp : Space) (o : Nat) (v : Byte) :
    (s.setSpaceByte sp o v).cnt = s.cnt := rfl

@[simp] theorem setSpaceByte_ev (s : State) (sp : Space) (o : Nat) (v : Byte) :
    (s.setSpaceByte sp o v).ev = s.ev := rfl

@[simp] theorem setSpaceByte_slots (s : State) (sp : Space) (o : Nat) (v : Byte) :
    (s.setSpaceByte sp o v).slots = s.slots := rfl

@[simp] theorem setSpaceByte_ready (s : State) (sp : Space) (o : Nat) (v : Byte) :
    (s.setSpaceByte sp o v).ready = s.ready := rfl

/-! ## setWord -/

@[simp] theorem setWord_config (s : State) (sp : Space) (i : Nat) (v : BitVec 10) :
    (setWord s sp i v).config = s.config := rfl

@[simp] theorem setWord_agenda (s : State) (sp : Space) (i : Nat) (v : BitVec 10) :
    (setWord s sp i v).agenda = s.agenda := rfl

@[simp] theorem setWord_moves (s : State) (sp : Space) (i : Nat) (v : BitVec 10) :
    (setWord s sp i v).moves = s.moves := rfl

@[simp] theorem setWord_epoch (s : State) (sp : Space) (i : Nat) (v : BitVec 10) :
    (setWord s sp i v).epoch = s.epoch := rfl

@[simp] theorem setWord_hostData (s : State) (sp : Space) (i : Nat) (v : BitVec 10) :
    (setWord s sp i v).hostData = s.hostData := rfl

@[simp] theorem setWord_ing (s : State) (sp : Space) (i : Nat) (v : BitVec 10) :
    (setWord s sp i v).ing = s.ing := rfl

@[simp] theorem setWord_con (s : State) (sp : Space) (i : Nat) (v : BitVec 10) :
    (setWord s sp i v).con = s.con := rfl

@[simp] theorem setWord_hdr (s : State) (sp : Space) (i : Nat) (v : BitVec 10) :
    (setWord s sp i v).hdr = s.hdr := rfl

@[simp] theorem setWord_fa (s : State) (sp : Space) (i : Nat) (v : BitVec 10) :
    (setWord s sp i v).fa = s.fa := rfl

@[simp] theorem setWord_fatal (s : State) (sp : Space) (i : Nat) (v : BitVec 10) :
    (setWord s sp i v).fatal = s.fatal := rfl

@[simp] theorem setWord_ps (s : State) (sp : Space) (i : Nat) (v : BitVec 10) :
    (setWord s sp i v).ps = s.ps := rfl

@[simp] theorem setWord_cnt (s : State) (sp : Space) (i : Nat) (v : BitVec 10) :
    (setWord s sp i v).cnt = s.cnt := rfl

@[simp] theorem setWord_ev (s : State) (sp : Space) (i : Nat) (v : BitVec 10) :
    (setWord s sp i v).ev = s.ev := rfl

@[simp] theorem setWord_slots (s : State) (sp : Space) (i : Nat) (v : BitVec 10) :
    (setWord s sp i v).slots = s.slots := rfl

@[simp] theorem setWord_ready (s : State) (sp : Space) (i : Nat) (v : BitVec 10) :
    (setWord s sp i v).ready = s.ready := rfl

/-! ## abortFrame -/

@[simp] theorem abortFrame_config (s : State) :
    (abortFrame s).config = s.config := rfl

@[simp] theorem abortFrame_agenda (s : State) :
    (abortFrame s).agenda = s.agenda := rfl

@[simp] theorem abortFrame_moves (s : State) :
    (abortFrame s).moves = s.moves := rfl

@[simp] theorem abortFrame_epoch (s : State) :
    (abortFrame s).epoch = s.epoch := rfl

@[simp] theorem abortFrame_hostData (s : State) :
    (abortFrame s).hostData = s.hostData := rfl

@[simp] theorem abortFrame_ing (s : State) :
    (abortFrame s).ing = s.ing := rfl

@[simp] theorem abortFrame_con (s : State) :
    (abortFrame s).con = s.con := rfl

@[simp] theorem abortFrame_hdr (s : State) :
    (abortFrame s).hdr = s.hdr := rfl

@[simp] theorem abortFrame_fatal (s : State) :
    (abortFrame s).fatal = s.fatal := rfl

@[simp] theorem abortFrame_ps (s : State) :
    (abortFrame s).ps = s.ps := rfl

@[simp] theorem abortFrame_cnt (s : State) :
    (abortFrame s).cnt = s.cnt := rfl

@[simp] theorem abortFrame_ev (s : State) :
    (abortFrame s).ev = s.ev := rfl

@[simp] theorem abortFrame_slots (s : State) :
    (abortFrame s).slots = s.slots := rfl

@[simp] theorem abortFrame_ready (s : State) :
    (abortFrame s).ready = s.ready := rfl

@[simp] theorem abortFrame_mem (s : State) :
    (abortFrame s).mem = s.mem := rfl

/-! ## publish -/

@[simp] theorem publish_config (s : State) (k : Nat) (i : BitVec 8) (p : Profile) :
    (publish s k i p).config = s.config := rfl

@[simp] theorem publish_agenda (s : State) (k : Nat) (i : BitVec 8) (p : Profile) :
    (publish s k i p).agenda = s.agenda := rfl

@[simp] theorem publish_moves (s : State) (k : Nat) (i : BitVec 8) (p : Profile) :
    (publish s k i p).moves = s.moves := rfl

@[simp] theorem publish_epoch (s : State) (k : Nat) (i : BitVec 8) (p : Profile) :
    (publish s k i p).epoch = s.epoch := rfl

@[simp] theorem publish_hostData (s : State) (k : Nat) (i : BitVec 8) (p : Profile) :
    (publish s k i p).hostData = s.hostData := rfl

@[simp] theorem publish_ing (s : State) (k : Nat) (i : BitVec 8) (p : Profile) :
    (publish s k i p).ing = s.ing := rfl

@[simp] theorem publish_con (s : State) (k : Nat) (i : BitVec 8) (p : Profile) :
    (publish s k i p).con = s.con := rfl

@[simp] theorem publish_hdr (s : State) (k : Nat) (i : BitVec 8) (p : Profile) :
    (publish s k i p).hdr = s.hdr := rfl

@[simp] theorem publish_fa (s : State) (k : Nat) (i : BitVec 8) (p : Profile) :
    (publish s k i p).fa = s.fa := rfl

@[simp] theorem publish_fatal (s : State) (k : Nat) (i : BitVec 8) (p : Profile) :
    (publish s k i p).fatal = s.fatal := rfl

@[simp] theorem publish_ps (s : State) (k : Nat) (i : BitVec 8) (p : Profile) :
    (publish s k i p).ps = s.ps := rfl

@[simp] theorem publish_cnt (s : State) (k : Nat) (i : BitVec 8) (p : Profile) :
    (publish s k i p).cnt = s.cnt := rfl

@[simp] theorem publish_ev (s : State) (k : Nat) (i : BitVec 8) (p : Profile) :
    (publish s k i p).ev = s.ev := rfl

@[simp] theorem publish_mem (s : State) (k : Nat) (i : BitVec 8) (p : Profile) :
    (publish s k i p).mem = s.mem := rfl

/-! ## overrun -/

@[simp] theorem overrun_config (s : State) (l : Leg) (q : Seq) :
    (overrun s l q).config = s.config := rfl

@[simp] theorem overrun_agenda (s : State) (l : Leg) (q : Seq) :
    (overrun s l q).agenda = s.agenda := rfl

@[simp] theorem overrun_moves (s : State) (l : Leg) (q : Seq) :
    (overrun s l q).moves = s.moves := rfl

@[simp] theorem overrun_epoch (s : State) (l : Leg) (q : Seq) :
    (overrun s l q).epoch = s.epoch := rfl

@[simp] theorem overrun_hostData (s : State) (l : Leg) (q : Seq) :
    (overrun s l q).hostData = s.hostData := rfl

@[simp] theorem overrun_ing (s : State) (l : Leg) (q : Seq) :
    (overrun s l q).ing = s.ing := rfl

@[simp] theorem overrun_con (s : State) (l : Leg) (q : Seq) :
    (overrun s l q).con = s.con := rfl

@[simp] theorem overrun_hdr (s : State) (l : Leg) (q : Seq) :
    (overrun s l q).hdr = s.hdr := rfl

@[simp] theorem overrun_fa (s : State) (l : Leg) (q : Seq) :
    (overrun s l q).fa = s.fa := rfl

@[simp] theorem overrun_fatal (s : State) (l : Leg) (q : Seq) :
    (overrun s l q).fatal = s.fatal := rfl

@[simp] theorem overrun_ps (s : State) (l : Leg) (q : Seq) :
    (overrun s l q).ps = s.ps := rfl

@[simp] theorem overrun_slots (s : State) (l : Leg) (q : Seq) :
    (overrun s l q).slots = s.slots := rfl

@[simp] theorem overrun_ready (s : State) (l : Leg) (q : Seq) :
    (overrun s l q).ready = s.ready := rfl

@[simp] theorem overrun_mem (s : State) (l : Leg) (q : Seq) :
    (overrun s l q).mem = s.mem := rfl

/-! ## dropDuplicate -/

@[simp] theorem dropDuplicate_config (s : State) (l : Leg) (q : Seq) :
    (dropDuplicate s l q).config = s.config := rfl

@[simp] theorem dropDuplicate_agenda (s : State) (l : Leg) (q : Seq) :
    (dropDuplicate s l q).agenda = s.agenda := rfl

@[simp] theorem dropDuplicate_moves (s : State) (l : Leg) (q : Seq) :
    (dropDuplicate s l q).moves = s.moves := rfl

@[simp] theorem dropDuplicate_epoch (s : State) (l : Leg) (q : Seq) :
    (dropDuplicate s l q).epoch = s.epoch := rfl

@[simp] theorem dropDuplicate_hostData (s : State) (l : Leg) (q : Seq) :
    (dropDuplicate s l q).hostData = s.hostData := rfl

@[simp] theorem dropDuplicate_ing (s : State) (l : Leg) (q : Seq) :
    (dropDuplicate s l q).ing = s.ing := rfl

@[simp] theorem dropDuplicate_con (s : State) (l : Leg) (q : Seq) :
    (dropDuplicate s l q).con = s.con := rfl

@[simp] theorem dropDuplicate_hdr (s : State) (l : Leg) (q : Seq) :
    (dropDuplicate s l q).hdr = s.hdr := rfl

@[simp] theorem dropDuplicate_fa (s : State) (l : Leg) (q : Seq) :
    (dropDuplicate s l q).fa = s.fa := rfl

@[simp] theorem dropDuplicate_fatal (s : State) (l : Leg) (q : Seq) :
    (dropDuplicate s l q).fatal = s.fatal := rfl

@[simp] theorem dropDuplicate_ps (s : State) (l : Leg) (q : Seq) :
    (dropDuplicate s l q).ps = s.ps := rfl

@[simp] theorem dropDuplicate_slots (s : State) (l : Leg) (q : Seq) :
    (dropDuplicate s l q).slots = s.slots := rfl

@[simp] theorem dropDuplicate_ready (s : State) (l : Leg) (q : Seq) :
    (dropDuplicate s l q).ready = s.ready := rfl

@[simp] theorem dropDuplicate_mem (s : State) (l : Leg) (q : Seq) :
    (dropDuplicate s l q).mem = s.mem := rfl

/-! ## holdGap -/

@[simp] theorem holdGap_config (s : State) (l : Leg) (e q : Seq) (p : Packet) :
    (holdGap s l e q p).config = s.config := rfl

@[simp] theorem holdGap_agenda (s : State) (l : Leg) (e q : Seq) (p : Packet) :
    (holdGap s l e q p).agenda = s.agenda := rfl

@[simp] theorem holdGap_moves (s : State) (l : Leg) (e q : Seq) (p : Packet) :
    (holdGap s l e q p).moves = s.moves := rfl

@[simp] theorem holdGap_epoch (s : State) (l : Leg) (e q : Seq) (p : Packet) :
    (holdGap s l e q p).epoch = s.epoch := rfl

@[simp] theorem holdGap_hostData (s : State) (l : Leg) (e q : Seq) (p : Packet) :
    (holdGap s l e q p).hostData = s.hostData := rfl

@[simp] theorem holdGap_ing (s : State) (l : Leg) (e q : Seq) (p : Packet) :
    (holdGap s l e q p).ing = s.ing := rfl

@[simp] theorem holdGap_con (s : State) (l : Leg) (e q : Seq) (p : Packet) :
    (holdGap s l e q p).con = s.con := rfl

@[simp] theorem holdGap_hdr (s : State) (l : Leg) (e q : Seq) (p : Packet) :
    (holdGap s l e q p).hdr = s.hdr := rfl

@[simp] theorem holdGap_fa (s : State) (l : Leg) (e q : Seq) (p : Packet) :
    (holdGap s l e q p).fa = s.fa := rfl

@[simp] theorem holdGap_fatal (s : State) (l : Leg) (e q : Seq) (p : Packet) :
    (holdGap s l e q p).fatal = s.fatal := rfl

@[simp] theorem holdGap_slots (s : State) (l : Leg) (e q : Seq) (p : Packet) :
    (holdGap s l e q p).slots = s.slots := rfl

@[simp] theorem holdGap_ready (s : State) (l : Leg) (e q : Seq) (p : Packet) :
    (holdGap s l e q p).ready = s.ready := rfl

@[simp] theorem holdGap_mem (s : State) (l : Leg) (e q : Seq) (p : Packet) :
    (holdGap s l e q p).mem = s.mem := rfl

/-! ## What the updates write -/

@[simp] theorem recordEvent_ev (s : State) (k : EventKind) (l : Option Leg)
    (r : Option (Seq × Seq)) :
    (recordEvent s k l r).ev = { count := s.ev.count + 1, last := some ⟨k, l, r⟩ } := rfl

@[simp] theorem raiseFatal_fatal (s : State) (c : FatalCause) (st : BitVec 3) (q : Seq) :
    (raiseFatal s c st q).fatal = some ⟨c, st, q⟩ := rfl

@[simp] theorem geometryFatal_fatal (s : State) (k : EventKind) (c : FatalCause) (st : BitVec 3)
    (q : Seq) : (geometryFatal s k c st q).fatal = some ⟨c, st, q⟩ := rfl

@[simp] theorem geometryFatal_ev (s : State) (k : EventKind) (c : FatalCause) (st : BitVec 3)
    (q : Seq) :
    (geometryFatal s k c st q).ev =
      { count := s.ev.count + 1, last := some ⟨k, none, some (q, q)⟩ } := rfl

@[simp] theorem completeIngest_stat (s : State) (c : Status) (f : CmdFlags) :
    (completeIngest s c f).ing.stat = { code := c, busy := false, flags := f } := rfl

@[simp] theorem completeConsumer_stat (s : State) (c : Status) :
    (completeConsumer s c).con.stat = { code := c, busy := false } := rfl

@[simp] theorem holdIngest_stat (s : State) :
    (holdIngest s).ing.stat = { s.ing.stat with busy := true } := rfl

@[simp] theorem holdConsumer_stat (s : State) :
    (holdConsumer s).con.stat = { s.con.stat with busy := true } := rfl

@[simp] theorem setSpaceByte_mem (s : State) (sp : Space) (o : Nat) (v : Byte) :
    (s.setSpaceByte sp o v).mem = memSet s.mem (sp.base + o) v := rfl

@[simp] theorem abortFrame_fa (s : State) :
    (abortFrame s).fa = { s.fa with state := .waitingSync, acc := 0, pktcnt := 0 } := rfl

@[simp] theorem holdGap_ps (s : State) (l : Leg) (e q : Seq) (p : Packet) :
    (holdGap s l e q p).ps =
      { s.ps with
        pending := q - e
        held := some { packet := { seq := q, bytes := p.bytes }, leg := l }
        heldSeq := q } := rfl

@[simp] theorem publish_ready (s : State) (k : Nat) (i : BitVec 8) (p : Profile) :
    (publish s k i p).ready = s.ready ++ frameTokens k p.multiplexed (nextGen s k) := rfl

@[simp] theorem completeIngest_cmd (s : State) (c : Status) (f : CmdFlags) :
    (completeIngest s c f).ing.cmd = s.ing.cmd := rfl

@[simp] theorem holdIngest_cmd (s : State) : (holdIngest s).ing.cmd = s.ing.cmd := rfl

@[simp] theorem completeIngest_pktLen (s : State) (c : Status) (f : CmdFlags) :
    (completeIngest s c f).ing.pktLen = s.ing.pktLen := rfl

@[simp] theorem holdIngest_pktLen (s : State) : (holdIngest s).ing.pktLen = s.ing.pktLen := rfl

@[simp] theorem completeIngest_ia0 (s : State) (c : Status) (f : CmdFlags) :
    (completeIngest s c f).ing.ia0 = s.ing.ia0 := rfl

@[simp] theorem holdIngest_ia0 (s : State) : (holdIngest s).ing.ia0 = s.ing.ia0 := rfl

@[simp] theorem completeIngest_ia1 (s : State) (c : Status) (f : CmdFlags) :
    (completeIngest s c f).ing.ia1 = s.ing.ia1 := rfl

@[simp] theorem holdIngest_ia1 (s : State) : (holdIngest s).ing.ia1 = s.ing.ia1 := rfl

@[simp] theorem completeIngest_ia2 (s : State) (c : Status) (f : CmdFlags) :
    (completeIngest s c f).ing.ia2 = s.ing.ia2 := rfl

@[simp] theorem holdIngest_ia2 (s : State) : (holdIngest s).ing.ia2 = s.ing.ia2 := rfl

@[simp] theorem completeIngest_ia3 (s : State) (c : Status) (f : CmdFlags) :
    (completeIngest s c f).ing.ia3 = s.ing.ia3 := rfl

@[simp] theorem holdIngest_ia3 (s : State) : (holdIngest s).ing.ia3 = s.ing.ia3 := rfl

@[simp] theorem completeIngest_ir0 (s : State) (c : Status) (f : CmdFlags) :
    (completeIngest s c f).ing.ir0 = s.ing.ir0 := rfl

@[simp] theorem holdIngest_ir0 (s : State) : (holdIngest s).ing.ir0 = s.ing.ir0 := rfl

@[simp] theorem completeIngest_ir1 (s : State) (c : Status) (f : CmdFlags) :
    (completeIngest s c f).ing.ir1 = s.ing.ir1 := rfl

@[simp] theorem holdIngest_ir1 (s : State) : (holdIngest s).ing.ir1 = s.ing.ir1 := rfl

@[simp] theorem completeConsumer_cmd (s : State) (c : Status) :
    (completeConsumer s c).con.cmd = s.con.cmd := rfl

@[simp] theorem holdConsumer_cmd (s : State) : (holdConsumer s).con.cmd = s.con.cmd := rfl

@[simp] theorem completeConsumer_ca0 (s : State) (c : Status) :
    (completeConsumer s c).con.ca0 = s.con.ca0 := rfl

@[simp] theorem holdConsumer_ca0 (s : State) : (holdConsumer s).con.ca0 = s.con.ca0 := rfl

@[simp] theorem completeConsumer_ca1 (s : State) (c : Status) :
    (completeConsumer s c).con.ca1 = s.con.ca1 := rfl

@[simp] theorem holdConsumer_ca1 (s : State) : (holdConsumer s).con.ca1 = s.con.ca1 := rfl

@[simp] theorem completeConsumer_cr0 (s : State) (c : Status) :
    (completeConsumer s c).con.cr0 = s.con.cr0 := rfl

@[simp] theorem holdConsumer_cr0 (s : State) : (holdConsumer s).con.cr0 = s.con.cr0 := rfl

@[simp] theorem completeConsumer_cr1 (s : State) (c : Status) :
    (completeConsumer s c).con.cr1 = s.con.cr1 := rfl

@[simp] theorem holdConsumer_cr1 (s : State) : (holdConsumer s).con.cr1 = s.con.cr1 := rfl

@[simp] theorem hardReset_config (s : State) : s.hardReset.config = s.config := rfl

@[simp] theorem hardReset_agenda (s : State) : s.hardReset.agenda = s.agenda := rfl

@[simp] theorem hardReset_moves (s : State) : s.hardReset.moves = s.moves := rfl

@[simp] theorem hardReset_hostData (s : State) : s.hardReset.hostData = s.hostData := rfl

@[simp] theorem hardReset_epoch (s : State) : s.hardReset.epoch = s.epoch + 1 := rfl

@[simp] theorem hardReset_mem (s : State) : s.hardReset.mem = [] := rfl

@[simp] theorem hardReset_fatal (s : State) : s.hardReset.fatal = none := rfl

end Sys2Proof.Machine
end

