-- ==== Sys2Proof/Laws/Memory.lean ====
section
/-! SUPPORT. The laws of the memory: a read after a write, a write leaves every other place alone, and
every memory operation keeps the canonical form. -/

namespace Sys2Proof.Machine

open Sys2Proof

/-! ## One byte -/

theorem memGet_memSet (m : List Host.Cell) (a b : Nat) (v : Byte) :
    memGet (memSet m a v) b = if b = a then some v else memGet m b := by
  induction m with
  | nil => simp [memSet, memGet]
  | cons cell rest ih =>
    obtain ⟨c, w⟩ := cell
    unfold memSet
    split
    · simp [memGet]
    · split
      · subst_vars; by_cases h : b = c <;> simp [memGet, h]
      · by_cases hb : b = c
        · have hne : c ≠ a := fun h => by omega
          simp [memGet, hb, hne]
        · simp [memGet, hb, ih]

@[simp] theorem memGet_memSet_self (m : List Host.Cell) (a : Nat) (v : Byte) :
    memGet (memSet m a v) a = some v := by simp [memGet_memSet]

theorem memGet_memSet_of_ne (m : List Host.Cell) {a b : Nat} (v : Byte) (h : b ≠ a) :
    memGet (memSet m a v) b = memGet m b := by simp [memGet_memSet, h]

theorem mem_memSet {m : List Host.Cell} {a : Nat} {v : Byte} {c : Host.Cell}
    (h : c ∈ memSet m a v) : c = (a, v) ∨ c ∈ m := by
  induction m with
  | nil => simpa [memSet] using h
  | cons cell rest ih =>
    obtain ⟨b, w⟩ := cell
    unfold memSet at h
    split at h
    · simpa using h
    · split at h
      · simp only [List.mem_cons] at h ⊢; tauto
      · simp only [List.mem_cons] at h ⊢
        rcases h with h | h
        · exact .inr (.inl h)
        · rcases ih h with h | h
          · exact .inl h
          · exact .inr (.inr h)

/-- The canonical form, spelled out. -/
theorem memWf_iff (m : List Host.Cell) :
    memWf m = true ↔ m.Pairwise fun x y => x.1 < y.1 := by
  simp [memWf, List.pairwise_map]

@[simp] theorem memWf_nil : memWf [] = true := by decide

/-- A write keeps the canonical form. -/
theorem memWf_memSet {m : List Host.Cell} (h : memWf m = true) (a : Nat) (v : Byte) :
    memWf (memSet m a v) = true := by
  rw [memWf_iff] at h ⊢
  induction m with
  | nil => simp [memSet]
  | cons cell rest ih =>
    obtain ⟨b, w⟩ := cell
    rw [List.pairwise_cons] at h
    unfold memSet
    split
    case isTrue hab =>
      rw [List.pairwise_cons, List.pairwise_cons]
      refine ⟨fun c hc => ?_, h⟩
      rcases List.mem_cons.1 hc with rfl | hc
      · exact hab
      · exact lt_trans hab (h.1 c hc)
    case isFalse hab =>
      split
      case isTrue heq =>
        subst heq
        exact List.pairwise_cons.2 ⟨fun c hc => h.1 c hc, h.2⟩
      case isFalse hne =>
        refine List.pairwise_cons.2 ⟨fun c hc => ?_, ih h.2⟩
        rcases mem_memSet hc with rfl | hc
        · show b < a; omega
        · exact h.1 c hc

/-! ## Consecutive bytes -/

theorem memWf_memSetAll {m : List Host.Cell} (h : memWf m = true) (a : Nat) (bs : List Byte) :
    memWf (memSetAll m a bs) = true := by
  induction bs generalizing m a with
  | nil => exact h
  | cons b rest ih => exact ih (memWf_memSet h a b) (a + 1)

/-- A bulk write stores byte `k` of the list at the k-th address, and nothing elsewhere. -/
theorem memGet_memSetAll (m : List Host.Cell) (a : Nat) (bs : List Byte) (b : Nat) :
    memGet (memSetAll m a bs) b =
      if a ≤ b ∧ b < a + bs.length then bs[b - a]? else memGet m b := by
  induction bs generalizing m a with
  | nil => simp [memSetAll]
  | cons x rest ih =>
    rw [memSetAll, ih, memGet_memSet, List.length_cons]
    by_cases hba : b = a
    · subst hba
      simp
    · by_cases hin : a + 1 ≤ b ∧ b < a + 1 + rest.length
      · have h2 : a ≤ b ∧ b < a + (rest.length + 1) := by omega
        obtain ⟨k, hk⟩ : ∃ k, b - a = k + 1 := ⟨b - a - 1, by omega⟩
        have hk' : b - (a + 1) = k := by omega
        simp [hin, h2, hk, hk']
      · have h2 : ¬(a ≤ b ∧ b < a + (rest.length + 1)) := by omega
        rw [if_neg hin, if_neg h2, if_neg hba]

theorem mem_memSetAll {m : List Host.Cell} {a : Nat} {bs : List Byte} {c : Host.Cell}
    (h : c ∈ memSetAll m a bs) : (a ≤ c.1 ∧ c.1 < a + bs.length) ∨ c ∈ m := by
  induction bs generalizing m a with
  | nil => exact .inr h
  | cons b rest ih =>
    rcases ih h with h | h
    · left; simp only [List.length_cons]; omega
    · rcases mem_memSet h with rfl | h
      · left; simp
      · exact .inr h

/-! ## Bytes of the state -/

/-- Two states whose memory and epoch agree read the same everywhere. -/
theorem byteAt_congr {s t : State} (hm : t.mem = s.mem) (he : t.epoch = s.epoch) (a : Nat) :
    t.byteAt a = s.byteAt a := by simp [State.byteAt, hm, he]

theorem byteAt_memSet (s : State) (a b : Nat) (v : Byte) :
    ({ s with mem := memSet s.mem a v } : State).byteAt b = if b = a then v else s.byteAt b := by
  by_cases h : b = a <;> simp [State.byteAt, memGet_memSet, h]

@[simp] theorem byteAt_setSpaceByte (s : State) (sp : Space) (o b : Nat) (v : Byte) :
    (s.setSpaceByte sp o v).byteAt b = if b = sp.base + o then v else s.byteAt b :=
  byteAt_memSet s _ b v

/-- A bulk write stores the bytes and leaves every other byte as it reads. -/
theorem byteAt_memSetAll (s : State) (a : Nat) (bs : List Byte) (b : Nat) :
    ({ s with mem := memSetAll s.mem a bs } : State).byteAt b =
      if a ≤ b ∧ b < a + bs.length then bs.getD (b - a) 0 else s.byteAt b := by
  by_cases h : a ≤ b ∧ b < a + bs.length
  · have hlt : b - a < bs.length := by omega
    simp [State.byteAt, memGet_memSetAll, h, hlt]
  · simp [State.byteAt, memGet_memSetAll, h]

/-! ## MemRead and MemWrite -/

/-- What MemWrite does, whole: it answers exactly inside the space, and then only the memory changes. -/
theorem memWrite_eq_some {s t : State} {sp : Space} {off : Nat} {bs : List Byte} :
    memWrite s sp off bs = some t ↔
      off + bs.length ≤ sp.size s.config ∧
        t = { s with mem := memSetAll s.mem (sp.base + off) bs } := by
  unfold memWrite
  split <;> simp_all [eq_comm]

theorem memWrite_eq_none {s : State} {sp : Space} {off : Nat} {bs : List Byte} :
    memWrite s sp off bs = none ↔ sp.size s.config < off + bs.length := by
  unfold memWrite
  split <;> simp_all

theorem memRead_eq_some {s : State} {sp : Space} {off n : Nat} {bs : List Byte} :
    memRead s sp off n = some bs ↔ off + n ≤ sp.size s.config ∧ bs = s.spaceBytes sp off n := by
  unfold memRead
  split <;> simp_all [eq_comm]

theorem memRead_eq_none {s : State} {sp : Space} {off n : Nat} :
    memRead s sp off n = none ↔ sp.size s.config < off + n := by
  unfold memRead
  split <;> simp_all

@[simp] theorem length_spaceBytes (s : State) (sp : Space) (off n : Nat) :
    (s.spaceBytes sp off n).length = n := by simp [State.spaceBytes]

/-! ## The 10-bit primitive -/

/-- What SetWord stores, byte by byte (R201). -/
theorem byteAt_setWord (s : State) (sp : Space) (i : Nat) (v : BitVec 10) (b : Nat) :
    (setWord s sp i v).byteAt b =
      if b = sp.base + wordByte i + 1 then
        (mergeWord (i % 4) (be16 s sp (wordByte i)) v).extractLsb' 0 8
      else if b = sp.base + wordByte i then
        (mergeWord (i % 4) (be16 s sp (wordByte i)) v).extractLsb' 8 8
      else s.byteAt b := by
  simp [setWord, Nat.add_assoc]

theorem memWf_setWord {s : State} (h : memWf s.mem = true) (sp : Space) (i : Nat) (v : BitVec 10) :
    memWf (setWord s sp i v).mem = true := memWf_memSet (memWf_memSet h _ _) _ _

theorem wordFits_iff (c : Config) (sp : Space) (i : Nat) :
    wordFits c sp i = true ↔ wordByte i + 1 < sp.size c := by simp [wordFits]

/-! ## The larger writes keep the canonical form -/

theorem memWf_memWrite {s t : State} {sp : Space} {off : Nat} {bs : List Byte}
    (h : memWf s.mem = true) (hw : memWrite s sp off bs = some t) : memWf t.mem = true := by
  obtain ⟨-, rfl⟩ := memWrite_eq_some.1 hw
  exact memWf_memSetAll h _ _

theorem memWf_writeWindow {s : State} (h : memWf s.mem = true) (sp : Space) (o : Nat)
    (bs : List Byte) : memWf (writeWindow s sp o bs).mem = true := by
  induction bs generalizing s o with
  | nil => exact h
  | cons b rest ih =>
    refine ih ?_ (o + 1)
    split
    · exact memWf_memSet h _ _
    · exact h

theorem memWf_hostWriteBytes {s : State} (h : memWf s.mem = true) (a : Nat) (bs : List Byte) :
    memWf (hostWriteBytes s a bs).mem = true := by
  unfold hostWriteBytes
  split
  · exact h
  · split
    · exact memWf_writeWindow h _ _ _
    · exact h

theorem memWf_storeGroup {s : State} (h : memWf s.mem = true) (k g : Nat)
    (a0 a1 b0 b1 : BitVec 10) : memWf (storeGroup s k g a0 a1 b0 b1).mem = true := by
  have h1 := memWf_setWord h (.halfA k) (2 * g) a0
  have h2 := memWf_setWord h1 (.halfA k) (2 * g + 1) a1
  have h3 := memWf_setWord h2 (.halfB k) (2 * g) b0
  exact memWf_setWord h3 (.halfB k) (2 * g + 1) b1

theorem memWf_demuxGroup {s : State} (h : memWf s.mem = true) (k g : Nat) :
    memWf (demuxGroup s k g).mem = true := by
  unfold demuxGroup
  exact memWf_storeGroup h k g _ _ _ _

theorem memWf_demuxGroups {s : State} (h : memWf s.mem = true) (k count : Nat) :
    memWf (demuxGroups s k count).mem = true := by
  induction count with
  | zero => exact h
  | succ g ih => exact memWf_demuxGroup ih k g

theorem memWf_demux {s t : State} {k : Nat} {p : Profile} (h : memWf s.mem = true)
    (hd : demux s k p = some t) : memWf t.mem = true := by
  unfold demux at hd
  simp only at hd
  split at hd
  · obtain rfl := Option.some.inj hd
    exact memWf_demuxGroups h _ _
  · exact absurd hd (by simp)

theorem memWf_deliver {s t : State} {l : Leg} {pkt : Packet} (h : memWf s.mem = true)
    (hd : deliver s l pkt = some t) : memWf t.mem = true := by
  unfold deliver at hd
  split at hd
  · exact absurd hd (by simp)
  · next hw =>
    obtain rfl := Option.some.inj hd
    have := memWf_memWrite h hw
    exact this

@[simp] theorem memWf_resetOf (c : Config) : memWf (State.resetOf c).mem = true := memWf_nil

end Sys2Proof.Machine
end

