-- ==== Sys2Proof/Laws/Ops.lean ====
section
/-! SUPPORT. For each shared operation, one lemma that says everything it can answer. -/

namespace Sys2Proof.Machine

open Sys2Proof

/-! ## Running a command on its port -/

/-- A legal ingest command ends in a next state in three ways: the fatal gate, its completion, a hold. -/
theorem runIngest_eq_next {s t : State} {body : State → CmdResult} :
    runIngest s body = .next t ↔
      (s.fatal.isSome = true ∧ t = completeIngest s .fatal {}) ∨
      (s.fatal = none ∧ ∃ u code flags, body s = .done u code flags ∧
        t = completeIngest u code flags) ∨
      (s.fatal = none ∧ body s = .hold ∧ t = holdIngest s) := by
  unfold runIngest
  cases hf : s.fatal with
  | some r => simp [eq_comm]
  | none => cases hb : body s <;> simp [eq_comm, and_assoc]

/-- A legal consumer command ends in a next state in three ways. -/
theorem runConsumer_eq_next {s t : State} {body : State → CmdResult} :
    runConsumer s body = .next t ↔
      (s.fatal.isSome = true ∧ t = completeConsumer s .fatal) ∨
      (s.fatal = none ∧ ∃ u code flags, body s = .done u code flags ∧
        t = completeConsumer u code) ∨
      (s.fatal = none ∧ body s = .hold ∧ t = holdConsumer s) := by
  unfold runConsumer
  cases hf : s.fatal with
  | some r => simp [eq_comm]
  | none =>
    cases hb : body s with
    | done u c f => simp [eq_comm]
    | hold => simp [eq_comm]
    | stop f => simp

theorem runIngest_eq_fault {s : State} {body : State → CmdResult} {f : Fault} :
    runIngest s body = .fault f ↔ s.fatal = none ∧ body s = .stop f := by
  unfold runIngest
  cases hf : s.fatal <;> cases hb : body s <;> simp

theorem runConsumer_eq_fault {s : State} {body : State → CmdResult} {f : Fault} :
    runConsumer s body = .fault f ↔ s.fatal = none ∧ body s = .stop f := by
  unfold runConsumer
  cases hf : s.fatal <;> cases hb : body s <;> simp

@[simp] theorem runIngest_ne_refused (s : State) (body : State → CmdResult) (r : Refusal) :
    runIngest s body ≠ .refused r := by
  unfold runIngest
  cases s.fatal <;> cases body s <;> simp

@[simp] theorem runConsumer_ne_refused (s : State) (body : State → CmdResult) (r : Refusal) :
    runConsumer s body ≠ .refused r := by
  unfold runConsumer
  cases s.fatal <;> cases body s <;> simp

theorem runIngest_of_fatal {s : State} (h : s.fatal.isSome = true) (body : State → CmdResult) :
    runIngest s body = .next (completeIngest s .fatal {}) := by simp [runIngest, h]

theorem runConsumer_of_fatal {s : State} (h : s.fatal.isSome = true) (body : State → CmdResult) :
    runConsumer s body = .next (completeConsumer s .fatal) := by simp [runConsumer, h]

theorem runIngest_of_done {s u : State} {body : State → CmdResult} {code : Status}
    {flags : CmdFlags} (hf : s.fatal = none) (hb : body s = .done u code flags) :
    runIngest s body = .next (completeIngest u code flags) := by simp [runIngest, hf, hb]

theorem runConsumer_of_done {s u : State} {body : State → CmdResult} {code : Status}
    {flags : CmdFlags} (hf : s.fatal = none) (hb : body s = .done u code flags) :
    runConsumer s body = .next (completeConsumer u code) := by simp [runConsumer, hf, hb]

theorem runIngest_of_hold {s : State} {body : State → CmdResult} (hf : s.fatal = none)
    (hb : body s = .hold) : runIngest s body = .next (holdIngest s) := by simp [runIngest, hf, hb]

theorem runConsumer_of_hold {s : State} {body : State → CmdResult} (hf : s.fatal = none)
    (hb : body s = .hold) : runConsumer s body = .next (holdConsumer s) := by
  simp [runConsumer, hf, hb]

/-! ## Operands -/

/-- Where R148 gives BADARG. -/
theorem spaceOf_eq_none {c : Config} {sp sl : Nat} :
    spaceOf c sp sl = none ↔ 6 ≤ sp ∨ (3 ≤ sp ∧ sp ≤ 5 ∧ c.nslots ≤ sl) := by
  unfold spaceOf
  split <;> (try split) <;> simp_all <;> omega

/-- The space a legal operand names is one of the configuration's. -/
theorem spaceOf_eq_some {c : Config} {sp sl : Nat} {space : Space} :
    spaceOf c sp sl = some space ↔
      (sp = 0 ∧ space = .pkt) ∨ (sp = 1 ∧ space = .work) ∨ (sp = 2 ∧ space = .out) ∨
      (sl < c.nslots ∧
        ((sp = 3 ∧ space = .frame sl) ∨ (sp = 4 ∧ space = .halfA sl) ∨
          (sp = 5 ∧ space = .halfB sl))) := by
  unfold spaceOf
  split <;> (try split) <;> simp_all [eq_comm]

theorem packetLength_eq_some {s : State} {n : Nat} :
    packetLength s = some n ↔ n = s.ing.pktLen.toNat ∧ n ≤ s.config.maxPktBytes := by
  unfold packetLength
  split <;> constructor <;> simp_all <;> rintro rfl <;> omega

theorem packetLength_eq_none {s : State} :
    packetLength s = none ↔ s.config.maxPktBytes < s.ing.pktLen.toNat := by
  unfold packetLength
  split <;> simp_all

/-- R380, clause by clause. -/
theorem validToken_iff {s : State} {t : Word} :
    validToken s t = true ↔
      ∃ slot, s.slots[tokenSlot t]? = some slot ∧ tokenSlot t < s.config.nslots ∧
        t.extractLsb' 12 4 = 0 ∧ slot.state = .ready ∧ tokenGen t = slot.gen ∧
        tokenKind t ≠ 3 ∧ tokenPart t ≠ 3 ∧ (tokenPart t = partFull ↔ slot.dual = false) := by
  unfold validToken
  cases s.slots[tokenSlot t]? with
  | none => simp
  | some slot =>
    simp only [Bool.and_eq_true, decide_eq_true_eq, Option.some.injEq, exists_eq_left', and_assoc,
      ne_eq]

/-! ## Headers -/

theorem parseRtp_eq_none {s : State} {sp : Space} {n : Nat} : parseRtp s sp n = none ↔ n < 12 := by
  unfold parseRtp
  split <;> simp_all

/-- The header length is between 8 and 72, and a multiple of 4 (R143). -/
theorem headerLength_bounds (h : HbrmtHeader) :
    8 ≤ headerLength h ∧ headerLength h ≤ 72 ∧ headerLength h % 4 = 0 := by
  have := h.ext.isLt
  unfold headerLength
  split <;> omega

/-- The search finds the record at the index it answers, and that record has the key. -/
theorem findProfile_eq_some {table : List Profile} {key : ProfileKey} {n k : Nat} {p : Profile}
    (h : findProfile table key n = some (k, p)) :
    n ≤ k ∧ table[k - n]? = some p ∧ p.key = key := by
  induction table generalizing n with
  | nil => simp [findProfile] at h
  | cons q rest ih =>
    unfold findProfile at h
    split at h
    · obtain ⟨rfl, rfl⟩ : n = k ∧ q = p := by simpa using h
      simp_all
    · obtain ⟨hle, hget, hkey⟩ := ih h
      refine ⟨by omega, ?_, hkey⟩
      obtain ⟨j, hj⟩ : ∃ j, k - n = j + 1 := ⟨k - n - 1, by omega⟩
      rw [hj, List.getElem?_cons_succ]
      rw [show k - (n + 1) = j by omega] at hget
      exact hget

/-- The search answers none exactly when no record has the key. -/
theorem findProfile_eq_none {table : List Profile} {key : ProfileKey} {n : Nat} :
    findProfile table key n = none ↔ ∀ p ∈ table, p.key ≠ key := by
  induction table generalizing n with
  | nil => simp [findProfile]
  | cons q rest ih =>
    unfold findProfile
    split <;> simp_all

/-! ## The assembler -/

/-- What the transport checks let through (R312). -/
theorem transportCheck_eq_pass {s : State} {n : Nat} {h : PacketHead} :
    transportCheck s n = .pass h ↔
      ∃ rtp, parseRtp s .pkt n = some rtp ∧ rtp.payloadType = Config.payloadType ∧ 20 ≤ n ∧
        12 + headerLength (decodeHbrmt s .pkt 12) ≤ n ∧
        h = { rtp, hb := decodeHbrmt s .pkt 12, length := n
              headerLen := headerLength (decodeHbrmt s .pkt 12) } := by
  unfold transportCheck skipMalformed
  cases parseRtp s .pkt n with
  | none => simp
  | some rtp =>
    simp only [Option.some.injEq, exists_eq_left']
    split
    · simp_all
    · split
      · simp; omega
      · split
        · simp; omega
        · simp_all [eq_comm]

/-- A skipped packet changes one counter and the event record, and nothing else (R312). -/
theorem transportCheck_eq_skip {s t : State} {n : Nat} {code : Status}
    (h : transportCheck s n = .skip t code) :
    ∃ kind range,
      (t = recordEvent { s with cnt := { s.cnt with malformed := s.cnt.malformed + 1 } } kind none
          range ∧ code = .malformed ∧ kind = .malformed) ∨
      (t = recordEvent { s with cnt := { s.cnt with ptDrop := s.cnt.ptDrop + 1 } } kind none
          range ∧ code = .ptDrop ∧ kind = .ptDrop) := by
  unfold transportCheck skipMalformed at h
  split at h
  · cases h; exact ⟨_, _, .inl ⟨rfl, rfl, rfl⟩⟩
  · split at h
    · cases h; exact ⟨_, _, .inr ⟨rfl, rfl, rfl⟩⟩
    · split at h
      · cases h; exact ⟨_, _, .inl ⟨rfl, rfl, rfl⟩⟩
      · dsimp only at h
        split at h
        · cases h; exact ⟨_, _, .inl ⟨rfl, rfl, rfl⟩⟩
        · cases h

/-- The slot found is FREE, and every slot before it is not (R313). -/
theorem firstFree_eq_some {slots : List Slot} {n k : Nat} (h : firstFree slots n = some k) :
    n ≤ k ∧ (∃ t, slots[k - n]? = some t ∧ t.state = .free) ∧
      ∀ j < k - n, ∀ t, slots[j]? = some t → t.state ≠ .free := by
  induction slots generalizing n with
  | nil => simp [firstFree] at h
  | cons q rest ih =>
    unfold firstFree at h
    split at h
    · obtain rfl : n = k := by simpa using h
      simp_all
    next hq =>
      obtain ⟨hle, ⟨t, hget, hfree⟩, hlow⟩ := ih h
      obtain ⟨j, hj⟩ : ∃ j, k - n = j + 1 := ⟨k - n - 1, by omega⟩
      rw [show k - (n + 1) = j by omega] at hget hlow
      refine ⟨by omega, ⟨t, by rw [hj, List.getElem?_cons_succ]; exact hget, hfree⟩, ?_⟩
      intro i hi u hu
      cases i with
      | zero =>
        obtain rfl : q = u := by simpa using hu
        exact hq
      | succ i =>
        rw [List.getElem?_cons_succ] at hu
        exact hlow i (by omega) u hu

theorem firstFree_eq_none {slots : List Slot} {n : Nat} :
    firstFree slots n = none ↔ ∀ t ∈ slots, t.state ≠ .free := by
  induction slots generalizing n with
  | nil => simp [firstFree]
  | cons q rest ih =>
    unfold firstFree
    split <;> simp_all

/-- A slot is acquired: the assembler's own, or the lowest-numbered FREE one (R313). -/
theorem acquireSlot_eq_some {s t : State} {k : Nat} (h : acquireSlot s = some (t, k)) :
    (∃ c, s.fa.cur = some c ∧ k = c.toNat ∧ t = s) ∨
    (s.fa.cur = none ∧ firstFree s.slots 0 = some k ∧
      t = { s with
            slots := modifySlot s.slots k fun t => { t with state := .filling }
            fa := { s.fa with cur := some (BitVec.ofNat 8 k) } }) := by
  unfold acquireSlot at h
  split at h
  next c hc =>
    simp only [Option.some.injEq, Prod.mk.injEq] at h
    exact .inl ⟨c, hc, h.2.symm, h.1.symm⟩
  next hc =>
    split at h
    · cases h
    next j hj =>
      simp only [Option.some.injEq, Prod.mk.injEq] at h
      obtain ⟨rfl, rfl⟩ := h
      exact .inr ⟨hc, hj, rfl⟩

/-- FAADD holds exactly when it owns no slot and none is FREE (R313). -/
theorem acquireSlot_eq_none {s : State} :
    acquireSlot s = none ↔ s.fa.cur = none ∧ ∀ t ∈ s.slots, t.state ≠ .free := by
  unfold acquireSlot
  cases hc : s.fa.cur with
  | some c => simp
  | none =>
    cases hj : firstFree s.slots 0 with
    | none => simpa using firstFree_eq_none.1 hj
    | some j =>
      simp only [reduceCtorEq, true_and, false_iff]
      intro hall
      have := (firstFree_eq_none (n := 0)).2 hall
      simp_all

theorem sequenceCheck_of_ok {s : State} {q : Seq} (h : sequenceLost s q = false) :
    sequenceCheck s q = { s with fa := { s.fa with lastSeq := q, first := false } } := by
  simp [sequenceCheck, h]

theorem sequenceCheck_of_lost {s : State} {q : Seq} (h : sequenceLost s q = true) :
    sequenceCheck s q =
      { recordEvent { s with cnt := { s.cnt with seqLoss := s.cnt.seqLoss + 1 } } .seqLoss none
          (some (s.fa.lastSeq + 1, q - 1)) with
        fa :=
          { s.fa with state := .waitingSync, acc := 0, pktcnt := 0, lastSeq := q, first := false } } := by
  simp [sequenceCheck, h, recordEvent]

/-- Binding leaves everything but the bound profile (R317). -/
theorem bindProfile_eq_ok {s t : State} {hb : HbrmtHeader} (h : bindProfile s hb = .ok t) :
    (¬(s.fa.pktcnt = 0 ∧ s.fa.profile = none) ∧ t = s) ∨
    (s.fa.pktcnt = 0 ∧ s.fa.profile = none ∧
      ∃ k p, resolveFromHbrmt s.config hb.map hb.frm hb.frate hb.sample = .ok (k, p) ∧
        t = { s with fa := { s.fa with profile := some (BitVec.ofNat 8 k) } }) := by
  unfold bindProfile at h
  split at h
  next hc =>
    refine .inr ⟨hc.1, hc.2, ?_⟩
    split at h
    next k p hr =>
      cases h
      exact ⟨k, p, hr, rfl⟩
    · cases h
  next hc =>
    cases h
    exact .inl ⟨hc, rfl⟩

/-! ## The switch -/

@[simp] theorem otherLeg_otherLeg (l : Leg) : otherLeg (otherLeg l) = l := by cases l <;> rfl

theorem eq_otherLeg_of_ne {l m : Leg} (h : l ≠ m) : l = otherLeg m := by
  cases l <;> cases m <;> simp_all [otherLeg]

@[simp] theorem legState_setLegState (p : Switch) (l : Leg) (x : LegState) :
    legState (setLegState p l x) l = x := by cases l <;> rfl

@[simp] theorem legState_setLegState_other (p : Switch) (l : Leg) (x : LegState) :
    legState (setLegState p l x) (otherLeg l) = legState p (otherLeg l) := by cases l <;> rfl

/-- A lookup hits exactly when the entry of the sequence number holds it (R402). -/
theorem lookup_eq_some {s : State} {l : Leg} {q : Seq} {pkt : Packet} :
    lookup s l q = some pkt ↔
      (legState s.ps l).ring[q.toNat % s.config.legCapacity]? = some (some pkt) ∧ pkt.seq = q := by
  unfold lookup
  split
  next x h =>
    rw [h]
    split <;> constructor <;> simp_all <;> rintro rfl <;> simp_all
  next hne =>
    constructor
    · simp
    · rintro ⟨h, -⟩
      exact absurd h (hne pkt)

/-- A delivery writes PKT, PKT_LEN, IR0 and IR1, and nothing else (R413). -/
theorem deliver_eq_some {s t : State} {l : Leg} {pkt : Packet} :
    deliver s l pkt = some t ↔
      pkt.bytes.length ≤ s.config.maxPktBytes ∧
        t = { s with
              mem := memSetAll s.mem Space.pkt.base pkt.bytes
              ing :=
                { s.ing with
                  pktLen := BitVec.ofNat 16 pkt.bytes.length
                  ir0 := pkt.seq.setWidth 32
                  ir1 := (legIndex l).setWidth 32 } } := by
  unfold deliver
  cases hw : memWrite s .pkt 0 pkt.bytes with
  | none =>
    have := memWrite_eq_none.1 hw
    simp only [Space.size] at this
    simp; omega
  | some s1 =>
    obtain ⟨hle, rfl⟩ := memWrite_eq_some.1 hw
    simp only [Space.size] at hle
    simp [eq_comm, show pkt.bytes.length ≤ s.config.maxPktBytes by omega]

/-- Liveness, whole: the legs refreshed; the roles swapped, counted and recorded exactly when the
refreshed Master is Offline (R414). -/
theorem liveness_eq (s : State) (l : Leg) (t : Time) :
    (((legState (refreshLegs s.ps l t) s.ps.master).online = true ∧
        liveness s l t = ({ s with ps := refreshLegs s.ps l t }, false)) ∨
      ((legState (refreshLegs s.ps l t) s.ps.master).online = false ∧
        liveness s l t =
          (recordEvent
            { s with
              ps := { refreshLegs s.ps l t with master := otherLeg s.ps.master }
              cnt := { s.cnt with psSwap := s.cnt.psSwap + 1 } }
            .psSwap (some s.ps.master) none, true))) := by
  have hm : (refreshLegs s.ps l t).master = s.ps.master := by cases l <;> rfl
  unfold liveness
  simp only [hm]
  cases (legState (refreshLegs s.ps l t) s.ps.master).online <;> simp

/-- The popped leg is Online after the refresh (R414). -/
theorem refreshLegs_online (p : Switch) (l : Leg) (t : Time) :
    (legState (refreshLegs p l t) l).online = true := by
  cases l <;> simp [refreshLegs, isOnline, legState, setLegState, BitVec.le_def]

/-! ## The demux and the extraction -/

theorem demux_eq_some {s t : State} {k : Nat} {p : Profile} :
    demux s k p = some t ↔
      p.transportFrameSizeBytes ≤ (Space.frame k).size s.config ∧
        p.transportFrameSizeBytes ≤ 2 * (Space.halfA k).size s.config ∧
        t = { demuxGroups s k (p.transportFrameSizeBytes / 5) with
              slots :=
                modifySlot (demuxGroups s k (p.transportFrameSizeBytes / 5)).slots k
                  fun t => { t with demuxed := true } } := by
  unfold demux
  dsimp only
  split
  next h => simp [h, eq_comm]
  next h =>
    simp only [reduceCtorEq, false_iff]
    rintro ⟨h1, h2, -⟩
    exact h ⟨h1, h2⟩

/-- A state that differs from another in its memory alone, field by field. -/
theorem eq_with_mem_iff {s t : State} :
    t = { s with mem := t.mem } ↔
      t.config = s.config ∧ t.agenda = s.agenda ∧ t.moves = s.moves ∧ t.epoch = s.epoch ∧
        t.hostData = s.hostData ∧ t.ing = s.ing ∧ t.con = s.con ∧ t.hdr = s.hdr ∧ t.fa = s.fa ∧
        t.fatal = s.fatal ∧ t.ps = s.ps ∧ t.cnt = s.cnt ∧ t.ev = s.ev ∧ t.slots = s.slots ∧
        t.ready = s.ready := by
  cases s; cases t; simp

theorem demuxGroup_eq (s : State) (k g : Nat) :
    demuxGroup s k g = { s with mem := (demuxGroup s k g).mem } := by
  rw [eq_with_mem_iff]
  simp [demuxGroup, storeGroup]

/-- A demux changes nothing but the memory and the slot's `demuxed` (R382). -/
theorem demuxGroups_eq (s : State) (k count : Nat) :
    demuxGroups s k count = { s with mem := (demuxGroups s k count).mem } := by
  induction count with
  | zero => rfl
  | succ g ih =>
    rw [demuxGroups]
    have step := demuxGroup_eq (demuxGroups s k g) k g
    generalize (demuxGroup (demuxGroups s k g) k g).mem = m at step ⊢
    rw [step]
    generalize demuxGroups s k g = u at ih ⊢
    rw [ih]

/-- A picture read has `activeWidthBytes` bytes a line. -/
theorem length_of_picture {s : State} {sp : Space} {p : Profile} {j count : Nat} {bs : List Byte}
    (h : picture s sp p j count = some bs) : bs.length = count * p.activeWidthBytes := by
  induction count generalizing j bs with
  | zero => simp_all [picture]
  | succ n ih =>
    unfold picture at h
    split at h
    · cases h
    next line hl =>
      split at h
      · cases h
      next rest hr =>
        obtain rfl := Option.some.inj h
        obtain ⟨-, rfl⟩ := memRead_eq_some.1 hl
        simp [ih hr, Nat.succ_mul, Nat.add_comm]

/-! ## The step -/

theorem step_of_wf {s : State} (h : s.config.wf = true) : step s = advance s := by
  simp [step, h]

/-- A step, whole: refused for its configuration, a held command, or the environment's move. -/
theorem step_cases (s : State) :
    (s.config.wf = false ∧ step s = .refused .invalidConfiguration) ∨
    (s.config.wf = true ∧ portLifted s .ingest s.ing.stat.busy s.ing.cmd = true ∧
      step s = issueIngest s) ∨
    (s.config.wf = true ∧ portLifted s .ingest s.ing.stat.busy s.ing.cmd = false ∧
      portLifted s .consumer s.con.stat.busy s.con.cmd = true ∧ step s = issueConsumer s) ∨
    (s.config.wf = true ∧ portLifted s .ingest s.ing.stat.busy s.ing.cmd = false ∧
      portLifted s .consumer s.con.stat.busy s.con.cmd = false ∧
      step s = perform (takeMove s) (nextMove s)) := by
  unfold step advance retryIngest retryConsumer
  cases s.config.wf <;> cases portLifted s .ingest s.ing.stat.busy s.ing.cmd <;>
    cases portLifted s .consumer s.con.stat.busy s.con.cmd <;> simp

/-- What `takeMove` changes: the schedule alone. -/
theorem takeMove_eq (s : State) :
    takeMove s = { s with agenda := (takeMove s).agenda, moves := (takeMove s).moves } := by
  unfold takeMove
  split <;> rfl

end Sys2Proof.Machine
end

