-- ==== Sys2Proof/Laws/PerInstr.lean ====
section
/-! SUPPORT. One lemma per command about its encoding, and the family's statement. -/

namespace Sys2Proof.Laws.OpcodeRow

open Sys2Proof

/-- The mask of the command's row of the opcode map (R152). -/
def rowMask (i : Instr) : Word :=
  match i with
  | .w10get _ _ => 0xFF00FFFF
  | .w10set _ _ => 0xFF00FFFF
  | .rtpparse => 0xFFFFFFFF
  | .hbrmtdec => 0xFFFFFFFF
  | .profres => 0xFFFFFFFF
  | .crccomp _ _ => 0xFF00FFFF
  | .crcwords => 0xFFFFFFFF
  | .crccheck _ _ => 0xFF00FFFF
  | .fareset => 0xFFFFFFFF
  | .faadd => 0xFFFFFFFF
  | .faabort => 0xFFFFFFFF
  | .psinit => 0xFFFFFFFF
  | .psread => 0xFFFFFFFF
  | .mbnext => 0xFFFFFFFF
  | .mbtype => 0xFFFFFFFF
  | .mbextract => 0xFFFFFFFF
  | .mbrelease => 0xFFFFFFFF

/-- The match value of the command's row of the opcode map: `OP << 24` (R152). -/
def rowMatch (i : Instr) : Word :=
  match i with
  | .w10get _ _ => 0x01000000
  | .w10set _ _ => 0x02000000
  | .rtpparse => 0x10000000
  | .hbrmtdec => 0x11000000
  | .profres => 0x12000000
  | .crccomp _ _ => 0x18000000
  | .crcwords => 0x19000000
  | .crccheck _ _ => 0x1A000000
  | .fareset => 0x20000000
  | .faadd => 0x21000000
  | .faabort => 0x22000000
  | .psinit => 0x30000000
  | .psread => 0x31000000
  | .mbnext => 0x40000000
  | .mbtype => 0x41000000
  | .mbextract => 0x42000000
  | .mbrelease => 0x43000000

/-- The word of a command that has an encoding matches its row of the opcode map. -/
def Statement (i : Instr) : Prop := i.wellFormed = true → encode i &&& rowMask i = rowMatch i

/-- A format-S word of the opcode map under the mask 0xFF00FFFF is its opcode. -/
theorem encodeWord_masked :
    ∀ op ∈ [0x01, 0x02, 0x18, 0x1A], ∀ sp sl : Fin 16,
      encodeWord op sp sl &&& 0xFF00FFFF = BitVec.ofNat 32 (op <<< 24) := by decide +kernel

theorem masked_of_fits {op sp sl : Nat} (hop : op ∈ [0x01, 0x02, 0x18, 0x1A])
    (h : fieldsFit sp sl = true) :
    encodeWord op sp sl &&& 0xFF00FFFF = BitVec.ofNat 32 (op <<< 24) := by
  simp only [fieldsFit, Bool.and_eq_true, decide_eq_true_eq] at h
  exact encodeWord_masked op hop ⟨sp, h.1⟩ ⟨sl, h.2⟩

theorem w10get (sp sl : Nat) : Statement (.w10get sp sl) := masked_of_fits (by decide)

theorem w10set (sp sl : Nat) : Statement (.w10set sp sl) := masked_of_fits (by decide)

theorem rtpparse : Statement .rtpparse := fun _ => by decide

theorem hbrmtdec : Statement .hbrmtdec := fun _ => by decide

theorem profres : Statement .profres := fun _ => by decide

theorem crccomp (sp sl : Nat) : Statement (.crccomp sp sl) := masked_of_fits (by decide)

theorem crcwords : Statement .crcwords := fun _ => by decide

theorem crccheck (sp sl : Nat) : Statement (.crccheck sp sl) := masked_of_fits (by decide)

theorem fareset : Statement .fareset := fun _ => by decide

theorem faadd : Statement .faadd := fun _ => by decide

theorem faabort : Statement .faabort := fun _ => by decide

theorem psinit : Statement .psinit := fun _ => by decide

theorem psread : Statement .psread := fun _ => by decide

theorem mbnext : Statement .mbnext := fun _ => by decide

theorem mbtype : Statement .mbtype := fun _ => by decide

theorem mbextract : Statement .mbextract := fun _ => by decide

theorem mbrelease : Statement .mbrelease := fun _ => by decide

end Sys2Proof.Laws.OpcodeRow
end

