-- ==== Sys2Proof/Machine/HostProgram.lean ====
section
/-! DEFINITION. The host's actions in the assembler syntax (R155) and the pseudo-commands (R156), as the
moves they stand for. -/

namespace Sys2Proof.Machine

open Sys2Proof

/-- One line of a host program (R155). -/
inductive HostAction where
  /-- `OPNAME`, or `OPNAME SPACE, slot`: a command, written to the register of its port. -/
  | issue (i : Instr)
  /-- `WR NAME, value`. -/
  | wr (r : Reg) (value : Word)
  /-- `RD NAME`. -/
  | rd (r : Reg)
  /-- `WRB SPACE, offset, b0 b1 …`. -/
  | wrb (sp : Space) (off : Nat) (bytes : List Byte)
  /-- `RDB SPACE[, slot], offset, n`. -/
  | rdb (sp : Space) (off n : Nat)
  /-- `RX leg, t, b0 b1 …`: an arrival. -/
  | rx (leg : Leg) (time : Time) (bytes : List Byte)
deriving DecidableEq, Repr

/-- The offset of a register in the register window (10_state.md). -/
def registerOffset (r : Reg) : Nat :=
  match r with
  | .slotInfo k => 0x300 + 8 * k
  | .slotPad k => 0x304 + 8 * k
  | r =>
    match registerMap.find? fun e => decide (e.2 = r) with
    | some e => e.1
    | none => 0xFFF

/-- The moves that write consecutive bytes, from a platform address on. R155 does not say which accesses
WRB makes and R104 allows 1, 2 or 4 bytes: the model makes one-byte accesses, each its own step, in
rising order (DESIGN CHOICE, assumption 21). -/
def writeBytesMoves (addr : Nat) (bytes : List Byte) : List Move :=
  match bytes with
  | [] => []
  | b :: rest => .writeByte addr b :: writeBytesMoves (addr + 1) rest

/-- The moves a line of a host program stands for (R155). WRB and RDB are one-byte accesses, each its own
step (DESIGN CHOICE, assumption 21). -/
def actionMoves (c : Config) (a : HostAction) : List Move :=
  match a with
  | .issue i =>
    match i.port with
    | .ingest => [.writeWord (c.hostBase + registerOffset .icmd) (encode i)]
    | .consumer => [.writeWord (c.hostBase + registerOffset .ccmd) (encode i)]
  | .wr r v => [.writeWord (c.hostBase + registerOffset r) v]
  | .rd r => [.read .word (c.hostBase + registerOffset r)]
  | .wrb sp off bytes => writeBytesMoves (c.hostBase + sp.base + off) bytes
  | .rdb sp off n => (List.range n).map fun k => .read .byte (c.hostBase + sp.base + off + k)
  | .rx leg t bytes => [.arrive leg bytes t]

/-- `LOADPKT b0 … b(n−1)` (R156): a WRB, whose accesses are assumption 21, then PKT_LEN. -/
def loadpkt (bytes : List Byte) : List HostAction :=
  [.wrb .pkt 0 bytes, .wr .pktLen (BitVec.ofNat 32 bytes.length)]

/-- One write per argument given, to the registers in their order. -/
def writeArgs (regs : List Reg) (values : List Word) : List HostAction :=
  (regs.zip values).map fun e => .wr e.1 e.2

/-- `ARGS a0[, a1[, a2[, a3]]]` (R156). -/
def args (values : List Word) : List HostAction := writeArgs [.ia0, .ia1, .ia2, .ia3] values

/-- `CARGS a0[, a1]` (R156). -/
def cargs (values : List Word) : List HostAction := writeArgs [.ca0, .ca1] values

/-- The first action of `FEED` (R156). -/
def feedFirst : List HostAction := [.issue .psread]

/-- What `FEED` goes on with once its PSREAD has completed: FAADD if it delivered, else nothing
(R156). -/
def feedSecond (s : State) : List HostAction :=
  if s.ing.stat.code = .delivered then [.issue .faadd] else []

/-- A program's actions put at the front of the environment's schedule. -/
def scheduleActions (s : State) (actions : List HostAction) : State :=
  { s with agenda := (actions.flatMap (actionMoves s.config)) ++ s.agenda }

end Sys2Proof.Machine
end

