-- ==== Sys2Proof/Tests/Slice0.lean ====
section
/-! SUPPORT. The model's own tests. Expected values are those of spec/95_test_vectors.md and of the
command rules' examples; each test names its vector. The `witness_` theorems show states and operands
that meet the hypotheses of the obligations. -/

namespace Sys2Proof.Tests

open Sys2Proof Sys2Proof.Machine

set_option Elab.async false

/-! ## Helpers -/

/-- The next state, if there is one. -/
def after (o : Host.Outcome State Fault Refusal) : Option State :=
  match o with
  | .next t => some t
  | .fault _ => none
  | .refused _ => none

theorem exists_next {o : Host.Outcome State Fault Refusal} (h : (after o).isSome = true) :
    ∃ t, o = .next t := by
  cases o with
  | next t => exact ⟨t, rfl⟩
  | fault _ => cases h
  | refused _ => cases h

/-- Bytes at consecutive addresses, as memory cells. -/
def cells (a : Nat) (bytes : List Nat) : List Host.Cell :=
  bytes.zipIdx.map fun e => (a + e.2, BitVec.ofNat 8 e.1)

/-- The reset state with a packet in PKT and its length in PKT_LEN. -/
def withPkt (bytes : List Nat) : State :=
  { State.reset with
    mem := cells Space.pkt.base bytes, ing.pktLen := BitVec.ofNat 16 bytes.length }

/-- The reset state with bytes in WORK and the ingest arguments set. -/
def withWork (bytes : List Nat) (a0 a1 a2 a3 : Word) : State :=
  { State.reset with
    mem := cells Space.work.base bytes, ing.ia0 := a0, ing.ia1 := a1, ing.ia2 := a2, ing.ia3 := a3 }

/-- `PK(seq, M, W1, payload)` of 95_test_vectors.md §2, W1 being its four bytes. -/
def pk (seq : Nat) (marker : Bool) (w1 payload : List Nat) : List Nat :=
  [0x80, if marker then 0xE2 else 0x62, seq / 256, seq % 256, 0, 0, 0, 0, 0, 0, 0, 0, 0, 0, 0, 0] ++
    w1 ++ payload

/-- W1P0 of 95_test_vectors.md §2. -/
def w1p0 : List Nat := [0x00, 0x11, 0x01, 0x00]

/-- The status of an ingest command's completion. -/
def ingCode (o : Host.Outcome State Fault Refusal) : Option Status :=
  (after o).map fun t => t.ing.stat.code

/-- The status of a consumer command's completion. -/
def conCode (o : Host.Outcome State Fault Refusal) : Option Status :=
  (after o).map fun t => t.con.stat.code

/-- A block that is fatal (V-F4). -/
def fatalState : State :=
  { State.reset with fatal := some { cause := .profile, stage := 1, seq := 1 } }

/-- The reset state with one move scheduled. -/
def facing (m : Move) : State := { State.reset with agenda := [m] }

/-! ## Well-formedness: what the check refuses -/

theorem test_wf_sp : (Instr.w10get 16 0).wellFormed = false := by decide
theorem test_wf_sl : (Instr.crccheck 1 16).wellFormed = false := by decide
theorem test_wf_ok : (Instr.w10set 15 15).wellFormed = true := by decide

/-- The test configuration is one R5 to R7 allow. -/
theorem test_config_wf : testConfig.wf = true := by decide +kernel

/-- R5: FRAME_BUF_BYTES = 1599 is the least value allowed. -/
theorem test_config_frame_buf : ({ testConfig with frameBufBytes := 1598 } : Config).wf = false := by
  decide +kernel
theorem test_config_half_buf : ({ testConfig with halfBufBytes := 59 } : Config).wf = false := by
  decide +kernel
theorem test_config_out : ({ testConfig with outBytes := 39 } : Config).wf = false := by
  decide +kernel
theorem test_config_nslots : ({ testConfig with nslots := 17 } : Config).wf = false := by
  decide +kernel
theorem test_config_max_pkt : ({ testConfig with maxPktBytes := 19 } : Config).wf = false := by
  decide +kernel
theorem test_config_code_zero :
    ({ testConfig with sampleTable := [(0, 10)] } : Config).wf = false := by decide +kernel
theorem test_config_same_tuple :
    ({ testConfig with profileTable := testProfiles ++ testProfiles } : Config).wf = false := by
  decide +kernel

/-- R6, one ill-formed record for each condition. -/
def badRecords : List Profile :=
  match testProfiles with
  | [p, d, i] =>
    [ { p with activeHeight := 0 }, { p with scanlineWidth := 9 }, { p with activeWidth := 9 },
      { p with activeWidth := 3 },
      { p with scanlineWidth := 4, componentsNb := 1, bitDepth := 8 },
      { d with bitDepth := 20, componentsNb := 1 }, { p with field1First := 2 },
      { i with field1Last := 5 }, { i with field2Last := 3 } ]
  | _ => []

theorem test_record_refused : badRecords.all (fun p => !p.wf) = true := by decide +kernel
theorem test_record_count : badRecords.length = 9 := by decide +kernel

/-! ## Decoding: every command's word, written out from R140 and R152 -/

theorem test_decode_w10get : decode 0b0000_0001_0011_0010_0000000000000000 = .ok (.w10get 3 2) := by
  decide
theorem test_decode_w10set : decode 0b0000_0010_0001_0000_0000000000000000 = .ok (.w10set 1 0) := by
  decide
theorem test_decode_rtpparse : decode 0b0001_0000_0000_0000_0000000000000000 = .ok .rtpparse := by
  decide
theorem test_decode_hbrmtdec : decode 0b0001_0001_0000_0000_0000000000000000 = .ok .hbrmtdec := by
  decide
theorem test_decode_profres : decode 0b0001_0010_0000_0000_0000000000000000 = .ok .profres := by
  decide
theorem test_decode_crccomp : decode 0b0001_1000_0101_1111_0000000000000000 = .ok (.crccomp 5 15) := by
  decide
theorem test_decode_crcwords : decode 0b0001_1001_0000_0000_0000000000000000 = .ok .crcwords := by
  decide
theorem test_decode_crccheck : decode 0b0001_1010_1111_0000_0000000000000000 = .ok (.crccheck 15 0) := by
  decide
theorem test_decode_fareset : decode 0b0010_0000_0000_0000_0000000000000000 = .ok .fareset := by
  decide
theorem test_decode_faadd : decode 0b0010_0001_0000_0000_0000000000000000 = .ok .faadd := by decide
theorem test_decode_faabort : decode 0b0010_0010_0000_0000_0000000000000000 = .ok .faabort := by
  decide
theorem test_decode_psinit : decode 0b0011_0000_0000_0000_0000000000000000 = .ok .psinit := by decide
theorem test_decode_psread : decode 0b0011_0001_0000_0000_0000000000000000 = .ok .psread := by decide
theorem test_decode_mbnext : decode 0b0100_0000_0000_0000_0000000000000000 = .ok .mbnext := by decide
theorem test_decode_mbtype : decode 0b0100_0001_0000_0000_0000000000000000 = .ok .mbtype := by decide
theorem test_decode_mbextract : decode 0b0100_0010_0000_0000_0000000000000000 = .ok .mbextract := by
  decide
theorem test_decode_mbrelease : decode 0b0100_0011_0000_0000_0000000000000000 = .ok .mbrelease := by
  decide

/-- V-W12, V-W13 and the word 0 (R153). -/
theorem test_decode_illegal :
    decode 0x01000001 = .error .mustBeZero ∧ decodeOn .consumer 0x01000000 = .error .wrongPort ∧
      decode 0 = .error .unknownOpcode ∧ decode 0x21010000 = .error .mustBeZero ∧
      decodeOn .ingest 0x40000000 = .error .wrongPort ∧ decode 0x44000000 = .error .unknownOpcode := by
  decide

/-! ## One step of each command -/

/-- V-W5. -/
theorem test_w10get_word2 :
    ((after (exec (.w10get 1 0) (withWork [0x12, 0x34, 0x56, 0x78, 0x9A] 2 0 0 0))).map
      fun t => (t.ing.ir0, t.ing.stat.code)) = some (0x19E, .ok) := by decide +kernel

/-- V-W6, V-W7, V-W10, V-W11. -/
theorem test_w10get_bounds :
    ingCode (exec (.w10get 0 0) { State.reset with ing.ia0 := 1199 }) = some .ok ∧
      ingCode (exec (.w10get 0 0) { State.reset with ing.ia0 := 1200 }) = some .badArg ∧
      ingCode (exec (.w10get 6 0) State.reset) = some .badArg ∧
      ingCode (exec (.w10get 3 2) State.reset) = some .badArg := by decide +kernel

/-- V-W4. -/
theorem test_w10set_word5 :
    ((after (exec (.w10set 1 0) (withWork (List.replicate 10 0xFF) 5 0 0 0))).map
      fun t => (t.spaceBytes .work 0 10).map BitVec.toNat) =
      some [0xFF, 0xFF, 0xFF, 0xFF, 0xFF, 0xFF, 0xC0, 0x0F, 0xFF, 0xFF] := by decide +kernel

/-- V-W8, V-W9. -/
theorem test_w10set_refuses :
    ingCode (exec (.w10set 0 0) { State.reset with ing.ia1 := 1024 }) = some .badArg ∧
      ingCode (exec (.w10set 2 0) State.reset) = some .badArg := by decide +kernel

/-- V-R2. -/
theorem test_rtpparse_fields :
    ((after (exec .rtpparse
      (withPkt [0x9F, 0x11, 0xFF, 0xFE, 1, 2, 3, 4, 5, 6, 7, 8]))).map
      fun t => (t.hdr.rtpHdr, t.hdr.rtpTs, t.hdr.rtpSsrc, t.ing.ir0, t.ing.stat.code)) =
      some (0x9F11FFFE, 0x01020304, 0x05060708, 0, .ok) := by decide +kernel

/-- V-R3, V-R4. -/
theorem test_rtpparse_lengths :
    ingCode (exec .rtpparse { State.reset with ing.pktLen := 11 }) = some .malformed ∧
      ingCode (exec .rtpparse { State.reset with ing.pktLen := 12 }) = some .ok ∧
      ingCode (exec .rtpparse { State.reset with ing.pktLen := 1500 }) = some .ok ∧
      ingCode (exec .rtpparse { State.reset with ing.pktLen := 1501 }) = some .badArg := by
  decide +kernel

/-- The 28 bytes of V-H1. -/
def vh1 : List Nat :=
  [0x80, 0xE2, 0x12, 0x34, 0, 0, 0, 0, 0, 0, 0, 0, 0x10, 0x7F, 0x00, 0x20, 0x00, 0x11, 0x01, 0x00,
    0xDE, 0xAD, 0xBE, 0xEF, 0, 0, 0, 0]

/-- V-H1. -/
theorem test_hbrmtdec_fields :
    ((after (exec .hbrmtdec (withPkt vh1))).map fun t =>
      (readRegister t .hbW0, readRegister t .hbW1, readRegister t .hbTs, readRegister t .hbLen,
        t.ing.ir0, t.ing.stat.code)) =
      some (0x107F0020, 0x00110100, 0xDEADBEEF, 0x00000010, 0x7F, .ok) := by decide +kernel

/-- V-H2, V-H3, V-H4: the first 24, 20 and 19 bytes of V-H1. -/
theorem test_hbrmtdec_short :
    ((after (exec .hbrmtdec (withPkt (vh1.take 24)))).map fun t =>
        (readRegister t .hbTs, readRegister t .hbLen, t.ing.stat.code)) =
        some (0xDEADBEEF, 0x00000010, .malformed) ∧
      ((after (exec .hbrmtdec (withPkt (vh1.take 20)))).map fun t =>
        (readRegister t .hbTs, readRegister t .hbLen, t.ing.stat.code)) =
        some (0, 0x00000010, .malformed) ∧
      ((after (exec .hbrmtdec (withPkt (vh1.take 19)))).map fun t =>
        (readRegister t .hbW0, readRegister t .hbLen, t.ing.stat.code)) =
        some (0, 0, .malformed) := by decide +kernel

/-- R240: every field of a header whose fields all differ from 0, from the two words written out by
R142's table. -/
theorem test_hbrmt_header_fields :
    hbrmtOfWords 0b1010_1_101_00111100_10_01_110_1001_10101 0b1011_01001110_01110001_1000_11000011 =
      { ext := 0xA, f := 1, vsid := 5, frcount := 0x3C, r := 2, s := 1, fec := 6
        clockFrequency := 9, rsv := 0x15, map := 0xB, frm := 0x4E, frate := 0x71, sample := 8
        frsv := 0xC3, word0 := 0xAD3C9D35, word1 := 0xB4E718C3 } := by decide

/-- PROFRES of a value of HB_W1: PROF_RES, IR0, IR1, status. -/
def profres (w1 : Word) : Option (Word × Word × Word × Status) :=
  (after (exec .profres { State.reset with hdr.hbW1 := w1 })).map fun t =>
    (readRegister t .profRes, t.ing.ir0, t.ing.ir1, t.ing.stat.code)

/-- V-P1, V-P2, V-P3, V-P4. -/
theorem test_profres_found :
    profres 0x00110100 = some (0x000, 0, 60, .ok) ∧ profres 0x20110100 = some (0x001, 1, 120, .ok) ∧
      profres 0x00210600 = some (0x002, 2, 50, .ok) ∧
      profres 0x00210500 = some (0x3FF, 0xFF, 0, .notDefined) := by decide +kernel

/-- V-P5, V-P6, V-P7, V-P9. -/
theorem test_profres_stages :
    profres 0x00110600 = some (0x3FF, 0xFF, 0, .notDefined) ∧
      profres 0x03010100 = some (0x1FF, 0xFF, 0, .notDefined) ∧
      profres 0x00111100 = some (0x2FF, 0xFF, 0, .notDefined) ∧
      profres 0x10110100 = some (0x4FF, 0xFF, 0, .notDefined) := by decide +kernel

/-- V-C4, and V-C8 and V-C9 at step 2. -/
theorem test_crccomp_words :
    ((after (exec (.crccomp 1 0) (withWork [0xFF, 0xC0, 0x00, 0x02, 0xAA] 0 4 1 0))).map
        fun t => (t.hdr.crcRem, t.ing.ir0)) = some (0x38DFD, 0x38DFD) ∧
      ((after (exec (.crccomp 1 0)
        (withWork [0x80, 4, 8, 0, 0x40, 0x80, 4, 8, 0, 0x40] 0 4 2 0))).map
        fun t => t.hdr.crcRem) = some 0x21F0C ∧
      ((after (exec (.crccomp 1 0)
        (withWork [0x80, 4, 8, 0, 0x40, 0x80, 4, 8, 0, 0x40] 1 4 2 0))).map
        fun t => t.hdr.crcRem) = some 0x273E1 := by decide +kernel

/-- V-C11, V-C12. -/
theorem test_crccomp_bounds :
    ingCode (exec (.crccomp 1 0) (withWork [] 0 0xFFFFFFFF 1 0)) = some .badArg ∧
      ((after (exec (.crccomp 1 0) (withWork [] 0xFFFFFFFF 0 1 0))).map
        fun t => (t.hdr.crcRem, t.ing.stat.code)) = some (0, .ok) := by decide +kernel

/-- The example of R291, and V-C0. -/
theorem test_crcwords :
    ((after (exec .crcwords { State.reset with hdr.crcRem := 0x38DFD })).map
        fun t => (readRegister t .crcWords, t.ing.ir0, t.ing.ir1)) =
        some (0x01C601FD, 0x1FD, 0x1C6) ∧
      ((after (exec .crcwords State.reset)).map fun t => (t.ing.ir0, t.ing.ir1)) =
        some (0x200, 0x200) := by decide +kernel

/-- The WORK bytes of R292's example. -/
def crcLine : List Nat := [0xFF, 0xC0, 0x00, 0x02, 0xAA, 0x7F, 0x5C, 0x60, 0x00, 0x00]

/-- The example of R292. -/
theorem test_crccheck_pass :
    ((after (exec (.crccheck 1 0) (withWork crcLine 0 4 1 4))).map fun t =>
      (readRegister t .crcWords, t.ing.ir0, t.ing.ir1, t.ing.stat.code)) =
      some (0x01C601FD, 0x01C601FD, 0x38DFD, .crcPass) := by decide +kernel
theorem test_crccheck_fail :
    ingCode (exec (.crccheck 1 0) (withWork crcLine 0 4 1 5)) = some .crcFail := by decide +kernel

/-- The assembler registers that FARESET's example reads, from P2's end state (R330). -/
theorem test_fareset :
    ((after (exec .fareset
      { State.reset with
        fa := { State.reset.fa with
                state := .complete, first := false, profile := some 0, cur := none, acc := 68
                frameSize := 60 } })).map fun t =>
      (readRegister t .faState, readRegister t .faFramesize)) = some (0x00FFFF05, 0) := by
  decide +kernel

/-- V-F1 before its second packet. -/
def oneAppended : State :=
  { withPkt (pk 6 true w1p0 (List.range 30)) with
    fa :=
      { State.reset.fa with
        first := false, profile := some 0, lastSeq := 5, acc := 30, pktcnt := 1 } }

/-- V-F1, its second packet: COMPLETE, PADDING 0, ACC 60, FRAMESIZE 60, slot 0 READY. -/
theorem test_faadd_completes :
    ((after (exec .faadd oneAppended)).map fun t =>
      (t.ing.stat.code, t.fa.padding, t.fa.acc, t.fa.frameSize)) = some (.complete, 0, 60, 60) ∧
    ((after (exec .faadd oneAppended)).map fun t => (readRegister t (.slotInfo 0), t.ready)) =
      some (0x00010002, [0x00010000, 0x00010100, 0x00010200]) := by decide +kernel

/-- V-F4. -/
theorem test_faadd_profile_fatal :
    ((after (exec .faadd (withPkt (pk 1 false [0x03, 0x01, 0x01, 0x00] [0, 0, 0, 0])))).map fun t =>
      (t.ing.stat.code, readRegister t .fatal, readRegister t .evInfo, readRegister t .evSeq)) =
      some (.fatal, 0x00010013, 0x00004043, 0x00010001) := by decide +kernel

/-- The example of R331. -/
theorem test_faabort :
    ((after (exec .faabort { State.reset with fa.acc := 24 })).map fun t =>
      (t.fa.state, t.fa.acc, t.ing.stat.code)) = some (.waitingSync, 0, .ok) := by decide +kernel

/-- The example of R420: PS_STATE and PS_EVQ_COUNT after PSINIT. -/
theorem test_psinit :
    ((after (exec .psinit (arrival State.reset .leg1 (List.replicate 20 0) 3))).map fun t =>
      (readRegister t .psState, readRegister t .psEvqCount, t.ing.stat.code)) =
      some (0, 0, .ok) := by decide +kernel

/-- A packet of the protection switch's vectors (95_test_vectors.md §9). -/
def rxPacket (seq : Nat) : List Byte := (pk seq false w1p0 []).map (BitVec.ofNat 8)

/-- Two arrivals on leg 0, and one on leg 1 between them, at threshold 100. -/
def arrivals (q0 q1 q2 : Nat) : State :=
  arrival (arrival (arrival { State.reset with ps.thresh := 100 } .leg0 (rxPacket q0) 0) .leg1
    (rxPacket q1) 1) .leg0 (rxPacket q2) 2

/-- P3, step 2. -/
theorem test_psread_delivers :
    ((after (exec .psread (arrivals 10 10 12))).map fun t =>
      (t.ing.stat.code, t.ing.ir0, t.ing.ir1, readRegister t .psState, readRegister t .pktLen)) =
      some (.delivered, 10, 0, 0x000B0022, 20) := by decide +kernel

/-- V-S7: the first event, from leg 1, swaps the roles and is delivered. -/
theorem test_psread_swaps :
    ((after (exec .psread (arrival State.reset .leg1 (rxPacket 7) 0))).map fun t =>
      (readRegister t .istat, t.ing.ir0, t.ps.master, t.cnt.psSwap)) =
      some (0x820, 7, .leg1, 1) := by decide +kernel

/-- P2's end state, as far as the consumer's commands look at it: slot 0 READY with profile 0 and
generation 1, and FRAME[0] holding bytes 00 to 3B. -/
def published : State :=
  { State.reset with
    slots :=
      [ { state := .ready, profile := 0, padding := 8, dual := false, demuxed := false, gen := 1 },
        Slot.initialFree ]
    ready := [0x00010000, 0x00010100, 0x00010200]
    fa := { State.reset.fa with state := .complete, first := false, profile := some 0, cur := none }
    mem := cells (Space.frame 0).base (List.range 60) }

/-- The example of R370. -/
theorem test_mbnext :
    ((after (exec .mbnext { published with ready := [0x00010200] })).map fun t =>
      (t.con.cr0, t.con.cr1, t.ready)) = some (0x00010200, 2, []) := by decide +kernel

/-- V-M1, and V-M4's word. -/
theorem test_mbtype :
    ((after (exec .mbtype { published with con.ca0 := 0x00010100 })).map fun t => t.con.cr1) =
        some 1 ∧
      conCode (exec .mbtype { published with con.ca0 := 0x00011000 }) = some .badToken := by
  decide +kernel

/-- V-M11's frame: slot 0 READY with the interlaced profile 2, FRAME[0] holding bytes 00 to 31. -/
def interlaced (phase : FieldPhase) : State :=
  { State.reset with
    config := { testConfig with fieldPhase := phase }
    slots :=
      [ { state := .ready, profile := 2, padding := 0, dual := false, demuxed := false, gen := 1 },
        Slot.initialFree ]
    mem := cells (Space.frame 0).base (List.range 50)
    con.ca0 := 0x00010000, con.ca1 := 40 }

/-- The rows of V-M11's OUT, for a FIELD_PHASE and the first bytes of its four lines. -/
def interlacedRows (phase : FieldPhase) (firsts : List Nat) : Bool :=
  decide (((after (exec .mbextract (interlaced phase))).map fun t =>
    (t.con.cr0, t.con.stat.code, (t.spaceBytes .out 0 40).map BitVec.toNat)) =
      some (40, .ok, firsts.flatMap fun a => (List.range 10).map fun b => a + b))

/-- V-M7; and V-M11, for both values of FIELD_PHASE. -/
theorem test_mbextract_picture :
    ((after (exec .mbextract { published with con.ca0 := 0x00010000, con.ca1 := 20 })).map fun t =>
      (t.con.cr0, t.con.stat.code, (t.spaceBytes .out 0 20).map BitVec.toNat)) =
      some (20, .ok,
        [0x1E, 0x1F, 0x20, 0x21, 0x22, 0x23, 0x24, 0x25, 0x26, 0x27, 0x32, 0x33, 0x34, 0x35, 0x36,
          0x37, 0x38, 0x39, 0x3A, 0x3B]) ∧
    interlacedRows .phase0 [0x0A, 0x1E, 0x14, 0x28] = true ∧
    interlacedRows .phase1 [0x1E, 0x0A, 0x28, 0x14] = true := by decide +kernel

/-- V-M2, V-M3, V-M5, V-M6, V-M8. -/
theorem test_mbextract_turned_away :
    conCode (exec .mbextract { published with con.ca0 := 0x00020000, con.ca1 := 64 }) =
        some .badToken ∧
      conCode (exec .mbextract { published with con.ca0 := 0x00010001, con.ca1 := 64 }) =
        some .badToken ∧
      conCode (exec .mbextract { published with con.ca0 := 0x00010400, con.ca1 := 64 }) =
        some .badToken ∧
      conCode (exec .mbextract { published with con.ca0 := 0x00010200, con.ca1 := 64 }) =
        some .unsupported ∧
      conCode (exec .mbextract { published with con.ca0 := 0x00010000, con.ca1 := 19 }) =
        some .tooSmall := by decide +kernel

/-- The example of R386. -/
theorem test_mbrelease :
    ((after (exec .mbrelease published)).map fun t =>
      (t.con.stat.code, readRegister t (.slotInfo 0), t.ready)) =
      some (.ok, 0x00010000, []) := by decide +kernel

/-- V-M9, V-M10. -/
theorem test_mbrelease_bad_slot :
    conCode (exec .mbrelease { published with con.ca0 := 1 }) = some .badSlot ∧
      conCode (exec .mbrelease { published with con.ca0 := 2 }) = some .badSlot := by decide +kernel

/-! ## The step -/

/-- P7: a fatal block answers FATAL to MBNEXT, ILLEGAL to the word 0, and nothing to an arrival. -/
theorem test_fatal_gate :
    conCode (step (fatalState.withFetchWord 32 0x40000000)) = some .fatal ∧
      ingCode (step (fatalState.withFetchWord 32 0)) = some .illegal ∧
      arrival fatalState .leg0 (rxPacket 2) 0 = fatalState := by decide +kernel

/-- The word placed by `withFetchWord` is the one the next step runs. -/
theorem test_fetch_word :
    ((after (step (State.reset.withFetchWord 32 0x22000000))).map fun t =>
        (t.ing.cmd, t.fa.state, t.ing.stat.code)) = some (0x22000000, .waitingSync, .ok) ∧
      ((after (step (State.reset.withFetchWord 32 0x40000000))).map fun t =>
        (t.con.cmd, t.con.stat.busy)) = some (0x40000000, true) := by decide +kernel

/-- The reset words of FA_STATE, PROF_RES, SLOT_INFO[0] and SLOT_INFO[1] (R490). -/
theorem test_reset_words :
    hostRead State.reset .word 0x080 = 0x0000FF05 ∧ hostRead State.reset .word 0x060 = 0x000000FF ∧
      hostRead State.reset .word 0x300 = 0x0000FF01 ∧
      hostRead State.reset .word 0x308 = 0x0000FF00 ∧ hostRead State.reset .word 0x310 = 0 := by
  decide +kernel

/-- R156: LOADPKT is one byte write for each byte, then PKT_LEN; FEED goes on only after DELIVERED. -/
theorem test_pseudo_commands :
    (loadpkt [0x80, 0xE2]).flatMap (actionMoves testConfig) =
        [.writeByte 0x01000000 0x80, .writeByte 0x01000001 0xE2, .writeWord 0x008 2] ∧
      feedSecond State.reset = [] ∧
      (cargs [0x00010000, 64]).flatMap (actionMoves testConfig) =
        [.writeWord 0x210 0x00010000, .writeWord 0x214 64] := by decide +kernel

/-! ## Witnesses: states and operands that meet the hypotheses of the obligations -/

theorem exists_next_with {o : Host.Outcome State Fault Refusal} {p : State → Bool}
    (h : ((after o).any p) = true) : ∃ t, o = .next t ∧ p t = true := by
  cases o with
  | next t => exact ⟨t, rfl, h⟩
  | fault _ => cases h
  | refused _ => cases h

/-- DecodeEncodeAgree, EncodeDecodeAgree. -/
theorem witness_encoding :
    (Instr.crccheck 15 15).wellFormed = true ∧ Instr.mbnext.wellFormed = true ∧
      decode 0x1AFF0000 = .ok (.crccheck 15 15) := by decide

/-- A port that holds: PSREAD on the ingest port, MBNEXT on the consumer port, nothing to go on with. -/
def holding (m : Move) : State :=
  { facing m with
    ing.cmd := 0x31000000, ing.stat.busy := true, con.cmd := 0x40000000, con.stat.busy := true }

/-- StepRunsIssuedCommand, its four clauses. -/
theorem witness_step_ingest :
    let s := facing (.writeWord 0x000 0x22000000)
    s.config.wf = true ∧ environmentTurn s ∧ nextWrites s 0x000 0x22000000 ∧
      s.ing.stat.busy = false ∧ decodeOn .ingest 0x22000000 = .ok .faabort :=
  ⟨test_config_wf, ⟨rfl, rfl⟩, rfl, rfl, by decide⟩
theorem witness_step_consumer :
    let s := facing (.writeWord 0x200 0x43000000)
    s.config.wf = true ∧ environmentTurn s ∧ nextWrites s 0x200 0x43000000 ∧
      s.con.stat.busy = false ∧ decodeOn .consumer 0x43000000 = .ok .mbrelease :=
  ⟨test_config_wf, ⟨rfl, rfl⟩, rfl, rfl, by decide⟩
theorem witness_step_busy :
    (let s := holding (.writeWord 0x000 0x22000000);
      s.config.wf = true ∧ environmentTurn s ∧ nextWrites s 0x000 0x22000000 ∧
        s.ing.stat.busy = true) ∧
    (let s := holding (.writeWord 0x200 0x43000000);
      s.config.wf = true ∧ environmentTurn s ∧ nextWrites s 0x200 0x43000000 ∧
        s.con.stat.busy = true) :=
  ⟨⟨test_config_wf, ⟨by decide, by decide⟩, rfl, rfl⟩,
    test_config_wf, ⟨by decide, by decide⟩, rfl, rfl⟩
theorem witness_fetch :
    State.reset.config.wf = true ∧ decode 0x21000000 = .ok .faadd ∧
      decode 0x42000000 = .ok .mbextract := ⟨test_config_wf, by decide, by decide⟩

/-- IllegalWordCompletes: the word 0, a bit that must be 0, the other port's opcode. -/
theorem witness_illegal :
    illegalOn .ingest 0 ∧ illegalOn .ingest 0x01000001 ∧ illegalOn .ingest 0x40000000 ∧
      illegalOn .consumer 0x01000000 ∧ illegalOn .consumer 0x44000000 := by
  unfold illegalOn; decide +kernel
theorem witness_illegal_ingest :
    let s := facing (.writeWord 0x000 0)
    s.config.wf = true ∧ environmentTurn s ∧ nextWrites s 0x000 0 ∧ s.ing.stat.busy = false :=
  ⟨test_config_wf, ⟨rfl, rfl⟩, rfl, rfl⟩
theorem witness_illegal_consumer :
    let s := facing (.writeWord 0x200 0x01000000)
    s.config.wf = true ∧ environmentTurn s ∧ nextWrites s 0x200 0x01000000 ∧
      s.con.stat.busy = false := ⟨test_config_wf, ⟨rfl, rfl⟩, rfl, rfl⟩

/-- HeldCommandCompletes, its five clauses. -/
theorem witness_held :
    (let s := { holding .hardReset with ready := [0x00010000] };
      s.config.wf = true ∧ s.fatal = none ∧
        portLifted s .ingest s.ing.stat.busy s.ing.cmd = false ∧ s.con.stat.busy = true ∧
        s.con.cmd = 0x40000000 ∧ s.ready = [0x00010000]) ∧
    (let s := { holding .hardReset with ps.pending := 1 };
      s.ing.stat.busy = true ∧ s.ing.cmd = 0x31000000 ∧ s.ps.pending ≠ 0) ∧
    (let s := { holding .hardReset with ing.cmd := 0x21000000 };
      s.ing.stat.busy = true ∧ s.ing.cmd = 0x21000000 ∧ ∃ t ∈ s.slots, t.state = .free) ∧
    (let s := { holding .hardReset with fatal := fatalState.fatal };
      s.fatal.isSome = true ∧ s.ing.stat.busy = true ∧
        decodeOn .ingest s.ing.cmd = .ok .psread) ∧
    (let s := { holding .hardReset with fatal := fatalState.fatal, ing.stat.busy := false };
      s.fatal.isSome = true ∧ s.ing.stat.busy = false ∧ s.con.stat.busy = true ∧
        decodeOn .consumer s.con.cmd = .ok .mbnext) :=
  ⟨⟨test_config_wf, rfl, by decide, rfl, rfl, rfl⟩, ⟨rfl, rfl, by decide⟩,
    ⟨rfl, rfl, Slot.initialFree, by decide, rfl⟩, ⟨rfl, rfl, by decide⟩,
    rfl, rfl, rfl, by decide⟩

/-- FatalGateEndsEveryCommand, FatalHaltsTheBlock: a command, a host write, a reset. -/
theorem witness_fatal :
    fatalState.fatal.isSome = true ∧
      (∃ t, step { fatalState with agenda := [.writeWord 0x000 0x20000000] } = .next t) ∧
      (∃ t, step { fatalState with agenda := [.writeByte 0x02000000 7] } = .next t) ∧
      ∃ t, step { fatalState with agenda := [.hardReset] } = .next t :=
  ⟨rfl, exists_next (by decide +kernel), exists_next (by decide +kernel),
    exists_next (by decide +kernel)⟩

/-- FatalOnlyFromFaadd: V-F4, issued by the host. -/
theorem witness_fatal_faadd :
    ∃ t, step { withPkt (pk 1 false [0x03, 0x01, 0x01, 0x00] [0, 0, 0, 0]) with
                agenda := [.writeWord 0x000 0x21000000] } = .next t ∧ t.fatal.isSome = true :=
  exists_next_with (by decide +kernel)

/-- InvalidConfigurationRefused, its four clauses. -/
theorem witness_invalid_configuration :
    (let c := { testConfig with frameBufBytes := 0 };
      c.frameBufBytes + 1 < c.maxPktBytes - 20) ∧
    (let c := { testConfig with frameBufBytes := 1598 };
      ∃ p ∈ c.profileTable,
        c.frameBufBytes + 1 < p.transportFrameSizeBytes + (c.maxPktBytes - 20)) ∧
    (let c := { testConfig with halfBufBytes := 59 };
      (∃ p ∈ c.profileTable, p.multiplexed = true) ∧
        ∃ p ∈ c.profileTable, 2 * c.halfBufBytes < p.transportFrameSizeBytes) ∧
    (let c := { testConfig with outBytes := 39 };
      ∃ p ∈ c.profileTable, c.outBytes < p.activeHeight * p.activeWidthBytes) := by
  decide +kernel

/-! ### The invariants -/

/-- One READY slot, the assembler without one, and nothing written: a state that meets the invariant. -/
def block (x : Slot) (ready : List Word) : State :=
  { published with slots := [x, Slot.initialFree], ready := ready, mem := [] }

theorem inv_block {x : Slot} {ready : List Word} {p : Profile} (hx : x.state = .ready)
    (hp : testConfig.profileTable[x.profile.toNat]? = some p) (hd : x.dual = p.multiplexed)
    (ht : p.transportFrameSizeBytes ≤ 1599) (hv : ready.all (validToken (block x ready)) = true)
    (hl : ready.length ≤ 6) : Inv (block x ready) where
  memory := { canonical := rfl, inSpaces := by simp [block] }
  frame :=
    { config := test_config_wf
      slotCount := rfl
      curFilling := by simp [block, published]
      fillingCur := by
        intro k t hk ht
        match k with
        | 0 =>
          obtain rfl : x = t := by simpa [block] using hk
          simp [hx] at ht
        | 1 =>
          obtain rfl : Slot.initialFree = t := by simpa [block] using hk
          cases ht
        | k + 2 => simp [block] at hk
      readySlots := by
        intro k t hk ht'
        match k with
        | 0 =>
          obtain rfl : x = t := by simpa [block] using hk
          exact ⟨p, hp, hd, ht⟩
        | 1 =>
          obtain rfl : Slot.initialFree = t := by simpa [block] using hk
          cases ht'
        | k + 2 => simp [block] at hk
      tokensValid := fun t h => List.all_eq_true.mp hv t h
      tokensPerSlot := fun k => le_trans (List.length_filter_le _ _) hl
      boundProfile := by
        intro k hk
        obtain rfl : (0 : BitVec 8) = k := by simpa [block, published] using hk
        exact (by decide : 0 < testProfiles.length)
      unboundEmpty := by simp [block, published]
      accFits := Nat.zero_le _
      completeNoSlot := fun _ => rfl
      waitingEmpty := by simp [block, published] }
  switch :=
    { ring0 := ⟨rfl, by
        intro i pkt h
        have : i < 4 := by
          by_contra hi
          have : (block x ready).ps.leg0.ring[i]? = none := List.getElem?_eq_none (by
            show 4 ≤ i; omega)
          simp [this] at h
        interval_cases i <;> cases h⟩
      ring1 := ⟨rfl, by
        intro i pkt h
        have : i < 4 := by
          by_contra hi
          have : (block x ready).ps.leg1.ring[i]? = none := List.getElem?_eq_none (by
            show 4 ≤ i; omega)
          simp [this] at h
        interval_cases i <;> cases h⟩
      eventQueue := Nat.zero_le _
      heldOk := by simp [block, published, State.reset, State.resetOf]
      pendingHeld := by simp [block, published, State.reset, State.resetOf] }
  ports := { ingestHold := by simp [block, published, State.reset, State.resetOf]
             consumerHold := by simp [block, published, State.reset, State.resetOf] }

/-- A published single-link frame's slot, and a dual-link one's. -/
def singleSlot : Slot :=
  { state := .ready, profile := 0, padding := 8, dual := false, demuxed := false, gen := 1 }
def dualSlot : Slot :=
  { state := .ready, profile := 1, padding := 0, dual := true, demuxed := false, gen := 1 }

theorem inv_single : Inv (block singleSlot [0x00010000, 0x00010100, 0x00010200]) :=
  inv_block (p := testProfiles[0]) (by decide +kernel) (by decide +kernel) (by decide +kernel)
    (by decide +kernel) (by decide +kernel) (by decide +kernel)

theorem inv_dual : Inv (block dualSlot [0x00010400, 0x00010A00]) :=
  inv_block (p := testProfiles[1]) (by decide +kernel) (by decide +kernel) (by decide +kernel)
    (by decide +kernel) (by decide +kernel) (by decide +kernel)

theorem inv_facing {s : State} (h : Inv s) (m : Move) : Inv { s with agenda := [m] } where
  memory := ⟨h.memory.1, h.memory.2⟩
  frame :=
    ⟨h.frame.1, h.frame.2, h.frame.3, h.frame.4, h.frame.5, h.frame.6, h.frame.7, h.frame.8,
      h.frame.9, h.frame.10, h.frame.11, h.frame.12⟩
  switch := ⟨h.switch.1, h.switch.2, h.switch.3, h.switch.4, h.switch.5⟩
  ports := ⟨h.ports.1, h.ports.2⟩

/-- The invariant obligations, ReadyQueueBounded, ConfigNeverChanges and CountersOnlyCount: a state
that meets the invariant and steps, on a command that takes a token. -/
theorem witness_invariants :
    ∃ s t : State, Inv s ∧ step s = .next t ∧ t.ready = [0x00010100, 0x00010200] := by
  obtain ⟨t, ht, hr⟩ := exists_next_with
    (o := step { block singleSlot [0x00010000, 0x00010100, 0x00010200] with
                 agenda := [.writeWord 0x200 0x40000000] })
    (p := fun t => decide (t.ready = [0x00010100, 0x00010200])) (by decide +kernel)
  exact ⟨_, t, inv_facing inv_single _, ht, of_decide_eq_true hr⟩

/-! ### Frames -/

/-- CommandsWriteOnlyTheirSpaces: W10SET changes a byte of WORK. -/
theorem witness_writes :
    ∃ t, exec (.w10set 1 0) (withWork [0, 0] 0 0x3FF 0 0) = .next t ∧
      decide (t.byteAt 0x02000000 ≠ (withWork [0, 0] 0 0x3FF 0 0).byteAt 0x02000000) = true :=
  exists_next_with (by decide +kernel)

/-- CommandsWriteOnlyTheirRegisters, StatusCodesPerCommand: a command of each port. -/
theorem witness_next :
    (∃ t, exec .psinit State.reset = .next t) ∧ (∃ t, exec .mbtype State.reset = .next t) ∧
      (∃ t, exec .psread State.reset = .next t) ∧ State.reset.fatal = none :=
  ⟨exists_next (by decide +kernel), exists_next (by decide +kernel),
    exists_next (by decide +kernel), rfl⟩

/-- `oneAppended` as the assembler meets it with no slot of its own. -/
def slotless : State :=
  { oneAppended with fa.cur := none, fa.state := .complete, slots := [singleSlot, Slot.initialFree] }

/-- SlotTransitions: FREE to FILLING, FILLING to READY, READY to FREE. -/
theorem witness_slots :
    (∃ t, exec .faadd { slotless with mem := cells Space.pkt.base (pk 6 false w1p0 []), ing.pktLen := 20 }
        = .next t ∧
      (decide (t.slots[1]?.map Slot.state = some .filling)) = true) ∧
    (∃ t, exec .faadd oneAppended = .next t ∧
      (decide (t.slots[0]?.map Slot.state = some .ready)) = true) ∧
    (∃ t, exec .mbrelease published = .next t ∧
      (decide (t.slots[0]?.map Slot.state = some .free)) = true) :=
  ⟨exists_next_with (by decide +kernel), exists_next_with (by decide +kernel),
    exists_next_with (by decide +kernel)⟩

/-! ### The parsers and the CRC engine -/

/-- W10getReadsTheWord, CrccompReturnsTheRemainder, CrccheckComparesStoredWords: bad spaces at their
boundaries, and every space code. -/
theorem witness_spaces :
    State.reset.fatal = none ∧ State.reset.config.nslots ≤ 2 ∧
      spaceOf State.reset.config 0 15 = some .pkt ∧ spaceOf State.reset.config 1 15 = some .work ∧
      spaceOf State.reset.config 2 15 = some .out ∧
      spaceOf State.reset.config 3 1 = some (.frame 1) ∧
      spaceOf State.reset.config 4 1 = some (.halfA 1) ∧
      spaceOf State.reset.config 5 1 = some (.halfB 1) ∧
      spaceOf State.reset.config 5 2 = none ∧ spaceOf State.reset.config 6 0 = none := by decide

/-- W10setWritesTheWord: a value of 1023 and of 1024, the last word of PKT and the one past it. -/
theorem witness_w10set :
    (let s := { State.reset with ing.ia0 := 1199, ing.ia1 := 1023 };
      s.fatal = none ∧ s.ing.ia1.toNat ≤ 1023 ∧
        s.ing.ia0.toNat / 4 * 5 + s.ing.ia0.toNat % 4 + 1 < Space.pkt.size s.config) ∧
    (let s := { State.reset with ing.ia0 := 1200, ing.ia1 := 0 };
      s.ing.ia1.toNat ≤ 1023 ∧
        Space.pkt.size s.config ≤ s.ing.ia0.toNat / 4 * 5 + s.ing.ia0.toNat % 4 + 1) ∧
    1023 < ({ State.reset with ing.ia1 := 1024 } : State).ing.ia1.toNat := by decide

/-- ResolverMatchesTheTable: each lookup that fails, the fold, and a match. -/
theorem witness_resolver :
    testConfig.tableOk = true ∧ testConfig.frame 0x30 = none ∧
      (testConfig.frame 0x02).map FrameGeometry.interlaced = some true ∧
      testConfig.frate 0x11 = none ∧ testConfig.frate 0x10 = some 60 ∧
      testConfig.sample 0 = none ∧ testConfig.sample 1 = some 10 := by decide +kernel

/-- CrcDependsOnTouchedBytes: states that differ in a byte the words do not touch. -/
theorem witness_crc_touched :
    let s := withWork [1, 2, 3, 4, 5, 6] 0 0 0 0
    let t := withWork [1, 2, 3, 4, 5, 7] 0 0 0 0
    ∀ k < 2, ∀ b, b = (0 + k * 2) / 4 * 5 + (0 + k * 2) % 4 →
      t.spaceByte .work b = s.spaceByte .work b ∧
        t.spaceByte .work (b + 1) = s.spaceByte .work (b + 1) := by
  intro s t k hk b hb
  subst hb
  interval_cases k <;> decide +kernel

/-! ### The assembler -/

/-- FaaddSkipsBadPackets, its clauses at their boundaries. -/
theorem witness_bad_packets :
    (let s := { State.reset with ing.pktLen := 1501 };
      s.fatal = none ∧ s.config.maxPktBytes < pktLength s) ∧
    pktLength { State.reset with ing.pktLen := 11 } < 12 ∧
    (let s := withPkt ((pk 9 false w1p0 []).set 1 0x61);
      12 ≤ pktLength s ∧ pktType s ≠ 98) ∧
    (let s := withPkt (vh1.take 19);
      12 ≤ pktLength s ∧ pktType s = 98 ∧ pktLength s < 20) ∧
    (let s := withPkt (vh1.take 27);
      20 ≤ pktLength s ∧ pktType s = 98 ∧ pktLength s < 12 + pktHeaderLength s) := by
  decide +kernel

theorem passes_appended : passesTransport oneAppended := by
  unfold passesTransport; decide +kernel

/-- FaaddHoldsWithoutFreeSlot: every slot READY. -/
theorem witness_faadd_hold :
    let s := { slotless with slots := [singleSlot, singleSlot] }
    passesTransport s ∧ s.fa.cur = none ∧ ∀ t ∈ s.slots, t.state ≠ .free :=
  ⟨passes_appended, rfl, by decide⟩

/-- A slot the assembler owns, and the lowest FREE one. -/
theorem takes_own : takesSlot oneAppended 0 oneAppended.slots := ⟨by decide, rfl, rfl⟩
theorem takes_free :
    takesSlot slotless 1 (slotless.slots.modify 1 fun t => { t with state := .filling }) := by
  refine ⟨by decide, ⟨Slot.initialFree, rfl, rfl⟩, ?_, rfl⟩
  intro j hj t ht
  obtain rfl : j = 0 := by omega
  obtain rfl : singleSlot = t := by simpa [slotless] using ht
  decide

/-- FaaddResynchronises: a gap, and WaitingSync in sequence. -/
theorem witness_resync :
    (let s := { oneAppended with fa.lastSeq := 3 };
      passesTransport s ∧ takesSlot s 0 s.slots ∧ ¬ inSequence s) ∧
    (let s := { oneAppended with fa.state := .waitingSync };
      passesTransport s ∧ takesSlot s 0 s.slots ∧ inSequence s ∧ s.fa.state = .waitingSync) :=
  ⟨⟨passes_appended, takes_own, by unfold inSequence; decide +kernel⟩,
    passes_appended, takes_own, .inr (by decide +kernel), rfl⟩

/-- The packet of `oneAppended` without its marker. -/
def unmarked : State :=
  { oneAppended with mem := cells Space.pkt.base (pk 6 false w1p0 (List.range 30)) }

/-- FaaddAppends: from Collecting with a slot, and from Complete without one. -/
theorem witness_appends :
    (collects unmarked ∧ takesSlot unmarked 0 unmarked.slots ∧ bindsTo unmarked (some 0) ∧
      (startAcc unmarked).toNat + (pktPayload unmarked).length ≤ unmarked.config.frameBufBytes ∧
      pktMarker unmarked = false) ∧
    (let s := { unmarked with fa := slotless.fa, slots := slotless.slots };
      collects s ∧ takesSlot s 1 (s.slots.modify 1 fun t => { t with state := .filling }) ∧
        bindsTo s (some 0)) := by
  have hp : passesTransport unmarked := by unfold passesTransport; decide +kernel
  have hp' : passesTransport { unmarked with fa := slotless.fa, slots := slotless.slots } := hp
  exact ⟨⟨⟨hp, .inr (by decide +kernel), by decide⟩, takes_own, rfl, by decide +kernel,
      by decide +kernel⟩,
    ⟨hp', .inr (by decide +kernel), by decide⟩, takes_free, rfl⟩

/-- FaaddCompletesTheFrame: V-F1's second packet. -/
theorem witness_completes :
    collects oneAppended ∧ takesSlot oneAppended 0 oneAppended.slots ∧
      bindsTo oneAppended (some 0) ∧
      (startAcc oneAppended).toNat + (pktPayload oneAppended).length ≤
        oneAppended.config.frameBufBytes ∧
      pktMarker oneAppended = true ∧
      oneAppended.config.profileTable[(0 : BitVec 8).toNat]? = some testProfiles[0] ∧
      oneAppended.slots[0]? = some Slot.initialFilling ∧
      (appendedTo oneAppended 0 (some 0)).acc.toNat =
        testProfiles[0].transportFrameSizeBytes + 0 ∧
      0 < (pktPayload oneAppended).length :=
  ⟨⟨passes_appended, .inr (by decide +kernel), by decide⟩, takes_own, rfl, by decide +kernel,
    by decide +kernel, rfl, rfl, by decide +kernel, by decide +kernel⟩

/-- FaaddRaisesFatal, its three clauses: V-F4; a frame buffer with one byte too few left; one byte too
few, and as many bytes too many as the marker packet carries. -/
theorem witness_raises_fatal :
    (let s := withPkt (pk 1 false [0x03, 0x01, 0x01, 0x00] [0, 0, 0, 0]);
      collects s ∧ takesSlot s 0 s.slots ∧ startCount s = 0 ∧ s.fa.profile = none ∧
        pktResolves s = .error .frame) ∧
    (let s := { oneAppended with fa.acc := 1570 };
      collects s ∧ takesSlot s 0 s.slots ∧ bindsTo s (some 0) ∧
        s.config.frameBufBytes < (startAcc s).toNat + (pktPayload s).length) ∧
    (let s := { oneAppended with fa.acc := 29 };
      collects s ∧ takesSlot s 0 s.slots ∧ bindsTo s (some 0) ∧
        (startAcc s).toNat + (pktPayload s).length ≤ s.config.frameBufBytes ∧
        pktMarker s = true ∧
        (appendedTo s 0 (some 0)).acc.toNat < testProfiles[0].transportFrameSizeBytes) ∧
    (let s := { oneAppended with fa.acc := 60 };
      testProfiles[0].transportFrameSizeBytes + (pktPayload s).length ≤
        (appendedTo s 0 (some 0)).acc.toNat) :=
  ⟨⟨⟨by unfold passesTransport; decide +kernel, .inl rfl, by decide⟩, ⟨by decide, rfl, rfl⟩, rfl,
      rfl, by rfl⟩,
    ⟨⟨passes_appended, .inr (by decide +kernel), by decide⟩, takes_own, rfl, by decide +kernel⟩,
    ⟨⟨passes_appended, .inr (by decide +kernel), by decide⟩, takes_own, rfl, by decide +kernel,
      by decide +kernel, by decide +kernel⟩,
    by decide +kernel⟩

/-! ### The switch -/

/-- The 20-byte packet of a sequence number, as the rings hold it. -/
def rxEntry (seq : Nat) : Packet := { seq := BitVec.ofNat 16 seq, bytes := rxPacket seq }

/-- P3 after its step 5: packet 12 held from leg 0, packet 11 missing and in leg 1's ring. -/
def gapPending : State :=
  { State.reset with
    ps.expected := some 11, ps.pending := 1, ps.heldSeq := 12
    ps.held := some { packet := rxEntry 12, leg := .leg0 }
    ps.leg1.ring := [some (rxEntry 12), none, none, some (rxEntry 11)] }

/-- ArrivalIsStoredOrDropped, PsinitResetsTheSwitch, PsreadHoldsOrDeliversTheHeld. -/
theorem witness_psread_hold :
    (State.reset.fatal = none ∧ State.reset.ps.pending = 0 ∧ State.reset.ps.held = none ∧
      State.reset.ps.evq = []) ∧
    (let s := { gapPending with ps.pending := 0 };
      s.fatal = none ∧ s.ps.pending = 0 ∧
        s.ps.held = some { packet := rxEntry 12, leg := .leg0 } ∧
        (rxEntry 12).bytes.length ≤ s.config.maxPktBytes) := by decide +kernel

/-- CatchUpRepairsOrGivesUp: the expected packet in the Secondary's ring, and not. -/
theorem witness_catch_up :
    (gapPending.fatal = none ∧ gapPending.ps.pending ≠ 0 ∧ gapPending.ps.expected = some 11 ∧
      Leg.leg1 ≠ gapPending.ps.master ∧ lookup gapPending .leg1 11 = some (rxEntry 11) ∧
      (rxEntry 11).bytes.length ≤ gapPending.config.maxPktBytes) ∧
    (let s := { gapPending with ps.leg1 := State.reset.ps.leg1 };
      lookup s .leg1 11 = none ∧ s.ps.held = some { packet := rxEntry 12, leg := .leg0 }) := by
  decide +kernel

/-- MasterIsAlwaysAlive: an event of the Master, and one that swaps the roles. -/
theorem witness_liveness :
    (∃ t, exec .psread (arrivals 10 10 12) = .next t ∧ decide (t.ps.master = .leg0) = true) ∧
    (∃ t, exec .psread (arrival State.reset .leg1 (rxPacket 7) 0) = .next t ∧
      decide (t.ps.master = .leg1) = true) ∧
    (arrivals 10 10 12).fatal = none ∧ (arrivals 10 10 12).ps.pending = 0 ∧
    (arrivals 10 10 12).ps.held = none ∧
    (arrivals 10 10 12).ps.evq =
      { leg := .leg0, seq := 10, time := 0 } ::
        [{ leg := .leg1, seq := 10, time := 1 }, { leg := .leg0, seq := 12, time := 2 }] :=
  ⟨exists_next_with (by decide +kernel), exists_next_with (by decide +kernel),
    by decide +kernel, by decide +kernel, by decide +kernel, by decide +kernel⟩

/-- What Liveness leaves of a block at its first event, packet `q` of leg 0 in the ring, `x` expected. -/
def popped (q : Nat) (x : Option Seq) : State :=
  { (liveness (arrival State.reset .leg0 (rxPacket q) 5) .leg0 5).1 with ps.expected := x }

/-- PsreadClassifiesTheEvent: no expected sequence, the expected one, one past it, 2^15 − 1 and 2^15
past it; an overwritten entry; the Secondary's event. -/
theorem witness_classify :
    (popped 7 none).ps.master = .leg0 ∧ lookup (popped 7 none) .leg0 7 = some (rxEntry 7) ∧
      (rxEntry 7).bytes.length ≤ State.reset.config.maxPktBytes ∧
      (popped 7 (some 7)).ps.expected = some 7 ∧ ((7 : Seq) - 6).toNat = 1 ∧
      ((7 : Seq) - 32776).toNat = 2 ^ 15 - 1 ∧ ((7 : Seq) - 32775).toNat = 2 ^ 15 ∧
      lookup (popped 11 none) .leg0 7 = none ∧ Leg.leg1 ≠ (popped 7 none).ps.master := by
  decide +kernel

/-- P3 at its step 5: packet 12 arrived on leg 0, packets 11 and 12 on leg 1, 11 expected. -/
def gapAhead : State :=
  { State.reset with
    ps.expected := some 11
    ps.leg0.ring := [some (rxEntry 12), none, none, none]
    ps.leg1.ring := [some (rxEntry 12), none, none, some (rxEntry 11)]
    ps.evq := [{ leg := .leg0, seq := 12, time := 2 }] }

/-- GapIsRepaired: P3's gap. -/
theorem witness_gap :
    gapAhead.fatal = none ∧ gapAhead.ps.pending = 0 ∧ gapAhead.ps.held = none ∧
      gapAhead.ps.expected = some 11 ∧ Leg.leg1 ≠ gapAhead.ps.master ∧
      gapAhead.ps.evq = [{ leg := gapAhead.ps.master, seq := 12, time := 2 }] ∧
      ((12 : Seq) - 11).toNat = 1 ∧
      lookup gapAhead gapAhead.ps.master 12 = some (rxEntry 12) ∧
      (rxEntry 12).bytes.length ≤ gapAhead.config.maxPktBytes ∧
      lookup gapAhead .leg1 (11 + BitVec.ofNat 16 0) = some (rxEntry 11) ∧
      (rxEntry 11).bytes.length ≤ gapAhead.config.maxPktBytes := by decide +kernel

/-! ### The media buffers and the host -/

/-- MbnextTakesTheHead, MbtypeGivesTheType, MbreleaseFreesTheSlot, MbextractTurnsAway. -/
theorem witness_consumer :
    published.fatal = none ∧ State.reset.ready = [] ∧
      published.ready = 0x00010000 :: [0x00010100, 0x00010200] ∧
      published.slots.length = published.config.nslots ∧
      published.slots[0]? = some singleSlot ∧ singleSlot.state = .ready ∧
      published.slots[2]? = none ∧ validToken published 0x00020000 = false ∧
      validToken published 0x00010200 = true ∧ tokenKind 0x00010200 ≠ kindVideo ∧
      tokenPart 0x00010200 = partFull ∧ tokenKind 0x00010000 = kindVideo ∧
      19 < testProfiles[0].activeHeight * testProfiles[0].activeWidthBytes := by decide +kernel

theorem inv_args {s : State} (h : Inv s) (a0 a1 : Word) :
    Inv { s with con.ca0 := a0, con.ca1 := a1 } where
  memory := ⟨h.memory.1, h.memory.2⟩
  frame :=
    ⟨h.frame.1, h.frame.2, h.frame.3, h.frame.4, h.frame.5, h.frame.6, h.frame.7, h.frame.8,
      h.frame.9, h.frame.10, h.frame.11, h.frame.12⟩
  switch := ⟨h.switch.1, h.switch.2, h.switch.3, h.switch.4, h.switch.5⟩
  ports := ⟨h.ports.1, h.ports.2⟩

/-- A dual-link frame's slot once its halves are split. -/
def demuxedSlot : Slot := { dualSlot with demuxed := true }

theorem inv_demuxed : Inv (block demuxedSlot [0x00010400, 0x00010A00]) :=
  inv_block (p := testProfiles[1]) (by decide +kernel) (by decide +kernel) (by decide +kernel)
    (by decide +kernel) (by decide +kernel) (by decide +kernel)

/-- MbextractCopiesThePicture: a Full token, and an interlaced profile. -/
theorem witness_extract :
    (∃ s : State, Inv s ∧ s.fatal = none ∧ validToken s s.con.ca0 = true ∧
      tokenKind s.con.ca0 = kindVideo ∧ s.slots[tokenSlot s.con.ca0]? = some singleSlot ∧
      s.config.profileTable[singleSlot.profile.toNat]? = some testProfiles[0] ∧
      testProfiles[0].activeHeight * testProfiles[0].activeWidthBytes ≤ s.con.ca1.toNat ∧
      tokenPart s.con.ca0 = partFull) ∧
    testProfiles[0].interlaced = false ∧ testProfiles[2].interlaced = true :=
  ⟨⟨_, inv_args inv_single 0x00010000 20, by decide +kernel, by decide +kernel,
      by decide +kernel, by decide +kernel, by decide +kernel, by decide +kernel,
      by decide +kernel⟩, rfl, rfl⟩

/-- FirstHalfExtractionDemuxes: a Half token of a slot not demuxed yet, and of one already demuxed. -/
theorem witness_demux :
    (∃ s : State, Inv s ∧ s.fatal = none ∧ validToken s s.con.ca0 = true ∧
      tokenPart s.con.ca0 ≠ partFull ∧ s.slots[tokenSlot s.con.ca0]? = some dualSlot ∧
      s.config.profileTable[dualSlot.profile.toNat]? = some testProfiles[1] ∧
      dualSlot.demuxed = false) ∧
    (∃ s : State, Inv s ∧ s.fatal = none ∧ validToken s s.con.ca0 = true ∧
      tokenPart s.con.ca0 ≠ partFull ∧ s.slots[tokenSlot s.con.ca0]? = some demuxedSlot ∧
      s.config.profileTable[demuxedSlot.profile.toNat]? = some testProfiles[1] ∧
      demuxedSlot.demuxed = true) :=
  ⟨⟨_, inv_args inv_dual 0x00010400 20, by decide +kernel, by decide +kernel, by decide +kernel,
      by decide +kernel, by decide +kernel, by decide +kernel⟩,
    ⟨_, inv_args inv_demuxed 0x00010800 20, by decide +kernel, by decide +kernel,
      by decide +kernel, by decide +kernel, by decide +kernel, by decide +kernel⟩⟩

/-- MbextractTurnsAway, its demuxing clause: an Audio Half token, and a Video one with an output one
byte too short. -/
theorem witness_half_turned_away :
    (∃ s : State, Inv s ∧ s.fatal = none ∧ validToken s s.con.ca0 = true ∧
      s.slots[tokenSlot s.con.ca0]? = some dualSlot ∧
      s.config.profileTable[dualSlot.profile.toNat]? = some testProfiles[1] ∧
      tokenPart s.con.ca0 ≠ partFull ∧ dualSlot.demuxed = false ∧
      tokenKind s.con.ca0 ≠ kindVideo) ∧
    (∃ s : State, Inv s ∧ s.fatal = none ∧ validToken s s.con.ca0 = true ∧
      s.slots[tokenSlot s.con.ca0]? = some dualSlot ∧
      s.config.profileTable[dualSlot.profile.toNat]? = some testProfiles[1] ∧
      tokenPart s.con.ca0 ≠ partFull ∧ dualSlot.demuxed = false ∧
      tokenKind s.con.ca0 = kindVideo ∧
      s.con.ca1.toNat < testProfiles[1].activeHeight * testProfiles[1].activeWidthBytes) :=
  ⟨⟨_, inv_args inv_dual 0x00010500 20, by decide +kernel, by decide +kernel, by decide +kernel,
      by decide +kernel, by decide +kernel, by decide +kernel, by decide +kernel⟩,
    ⟨_, inv_args inv_dual 0x00010400 19, by decide +kernel, by decide +kernel,
      by decide +kernel, by decide +kernel, by decide +kernel, by decide +kernel,
      by decide +kernel, by decide +kernel⟩⟩

/-- UndecodedAccessesAreInert, HostSeesBytesBigEndian: each kind of access, at its boundaries. -/
theorem witness_host :
    windowSpace testConfig 0x04 = none ∧ windowSpace testConfig 0x12 = none ∧
      testConfig.nslots ≤ 2 ∧ windowSpace testConfig 0x11 = some (.frame 1) ∧
      windowSpace testConfig 0x03 = some .out ∧ windowSpace testConfig 0x21 = some (.halfA 1) ∧
      windowSpace testConfig 0x31 = some (.halfB 1) ∧ windowSpace testConfig 0x01 = some .pkt ∧
      Space.pkt.size testConfig ≤ 1500 ∧ 1496 + 4 ≤ Space.pkt.size testConfig ∧
      1499 < Space.pkt.size testConfig ∧ State.reset.slots[1]? = some Slot.initialFree := by
  decide +kernel

/-- An offset no register occupies, the first one past the slots' registers, and the registers at the
fixed offsets (HostSeesBytesBigEndian, its first clause). -/
theorem witness_registers :
    ((registerWords State.reset).map Prod.fst).contains 0x00C = false ∧
      ((registerWords State.reset).map Prod.fst).contains 0x310 = false ∧
      (0x310 : Nat) = 0x300 + 8 * 2 ∧
      (registerWords State.reset).contains (0x080, 0x0000FF05) = true ∧
      (registerWords State.reset).length = 53 := by decide +kernel

end Sys2Proof.Tests
end

section
/-! SUPPORT. A command as its pseudocode on its port, which commands never hold, and what every command
of a port leaves alone. -/

namespace Sys2Proof.Machine

open Sys2Proof

/-! ## Decoding on a port (R153) -/

theorem decodeOn_eq_ok {p : Port} {w : Word} {i : Instr} :
    decodeOn p w = .ok i ↔ decode w = .ok i ∧ i.port = p := by
  unfold decodeOn
  cases decode w with
  | error r => simp
  | ok j =>
    by_cases hj : j.port = p
    · simp only [hj, if_true, Except.ok.injEq]
      exact ⟨fun h => ⟨h, h ▸ hj⟩, fun h => h.1⟩
    · simp only [hj, if_false, reduceCtorEq, Except.ok.injEq, false_iff]
      rintro ⟨rfl, h⟩
      exact hj h

/-! ## A command as its pseudocode on its port (R152, R154) -/

/-- The pseudocode of each command; `exec_of_ingest` and `exec_of_consumer` tie it to `exec`. -/
def commandBody (i : Instr) : State → CmdResult :=
  match i with
  | .w10get sp sl => w10getBody sp sl
  | .w10set sp sl => w10setBody sp sl
  | .rtpparse => rtpparseBody
  | .hbrmtdec => hbrmtdecBody
  | .profres => profresBody
  | .crccomp sp sl => crccompBody sp sl
  | .crcwords => crcwordsBody
  | .crccheck sp sl => crccheckBody sp sl
  | .fareset => faresetBody
  | .faadd => faaddBody
  | .faabort => faabortBody
  | .psinit => psinitBody
  | .psread => psreadBody
  | .mbnext => mbnextBody
  | .mbtype => mbtypeBody
  | .mbextract => mbextractBody
  | .mbrelease => mbreleaseBody

theorem exec_of_ingest {i : Instr} (h : i.port = .ingest) (s : State) :
    exec i s = runIngest s (commandBody i) := by
  cases i <;> cases h <;> rfl

theorem exec_of_consumer {i : Instr} (h : i.port = .consumer) (s : State) :
    exec i s = runConsumer s (commandBody i) := by
  cases i <;> cases h <;> rfl

/-- The fatal gate on the ingest port (R456). -/
theorem exec_of_fatal_ingest {i : Instr} {s : State} (hp : i.port = .ingest)
    (hf : s.fatal.isSome = true) : exec i s = .next (completeIngest s .fatal {}) := by
  rw [exec_of_ingest hp, runIngest_of_fatal hf]

/-- The fatal gate on the consumer port (R456). -/
theorem exec_of_fatal_consumer {i : Instr} {s : State} (hp : i.port = .consumer)
    (hf : s.fatal.isSome = true) : exec i s = .next (completeConsumer s .fatal) := by
  rw [exec_of_consumer hp, runConsumer_of_fatal hf]

/-! ## What a command leaves alone -/

/-- A command that completes leaves a view of the state as it was. -/
def CmdResult.Leaves {α : Type} (r : CmdResult) (view : State → α) (s : State) : Prop :=
  match r with
  | .done u _ _ => view u = view s
  | .hold => True
  | .stop _ => True

theorem CmdResult.Leaves.done {α : Type} {r : CmdResult} {view : State → α} {s u : State}
    {code : Status} {flags : CmdFlags} (h : r.Leaves view s) (hr : r = .done u code flags) :
    view u = view s := by
  subst hr
  exact h

/-- A view that agrees on two states is left alone from the one as from the other. -/
theorem CmdResult.Leaves.congr {α : Type} {r : CmdResult} {view : State → α} {s t : State}
    (h : r.Leaves view t) (hv : view t = view s) : r.Leaves view s := by
  cases r with
  | done u c f => exact Eq.trans h hv
  | hold => trivial
  | stop f => trivial

/-- A command that never holds, and leaves a view of the state as it was where it completes. -/
def CmdResult.EndsLeaving {α : Type} (r : CmdResult) (view : State → α) (s : State) : Prop :=
  match r with
  | .done u _ _ => view u = view s
  | .hold => False
  | .stop _ => True

theorem CmdResult.EndsLeaving.leaves {α : Type} {r : CmdResult} {view : State → α} {s : State}
    (h : r.EndsLeaving view s) : r.Leaves view s := by
  cases r with
  | done u c f => exact h
  | hold => trivial
  | stop f => trivial

theorem CmdResult.EndsLeaving.ne_hold {α : Type} {r : CmdResult} {view : State → α} {s : State}
    (h : r.EndsLeaving view s) : r ≠ .hold := by
  rintro rfl
  exact h

theorem CmdResult.EndsLeaving.congr {α : Type} {r : CmdResult} {view : State → α} {s t : State}
    (h : r.EndsLeaving view t) (hv : view t = view s) : r.EndsLeaving view s := by
  cases r with
  | done u c f => exact Eq.trans h hv
  | hold => exact h
  | stop f => trivial

/-- What no ingest command's pseudocode writes: the model's own fields, the consumer port and the
command register the word stands in. -/
structure IngestRest where
  config : Config
  agenda : List Move
  moves : Nat
  epoch : Nat
  hostData : Word
  con : ConsumerPort
  cmd : Word

/-- The part of a state that an ingest command leaves alone. -/
def ingestRest (s : State) : IngestRest :=
  { config := s.config, agenda := s.agenda, moves := s.moves, epoch := s.epoch
    hostData := s.hostData, con := s.con, cmd := s.ing.cmd }

theorem ingestRest_eq_iff {s t : State} :
    ingestRest t = ingestRest s ↔
      t.config = s.config ∧ t.agenda = s.agenda ∧ t.moves = s.moves ∧ t.epoch = s.epoch ∧
        t.hostData = s.hostData ∧ t.con = s.con ∧ t.ing.cmd = s.ing.cmd := by
  simp [ingestRest]

/-- What no consumer command's pseudocode writes: the model's own fields, the ingest side whole, and
the command register the word stands in. -/
structure ConsumerRest where
  config : Config
  agenda : List Move
  moves : Nat
  epoch : Nat
  hostData : Word
  ing : IngestPort
  hdr : HeaderRegs
  fa : Assembler
  fatal : Option FatalRecord
  ps : Switch
  cnt : Counters
  ev : EventLog
  cmd : Word

/-- The part of a state that a consumer command leaves alone. -/
def consumerRest (s : State) : ConsumerRest :=
  { config := s.config, agenda := s.agenda, moves := s.moves, epoch := s.epoch
    hostData := s.hostData, ing := s.ing, hdr := s.hdr, fa := s.fa, fatal := s.fatal, ps := s.ps
    cnt := s.cnt, ev := s.ev, cmd := s.con.cmd }

theorem consumerRest_eq_iff {s t : State} :
    consumerRest t = consumerRest s ↔
      t.config = s.config ∧ t.agenda = s.agenda ∧ t.moves = s.moves ∧ t.epoch = s.epoch ∧
        t.hostData = s.hostData ∧ t.ing = s.ing ∧ t.hdr = s.hdr ∧ t.fa = s.fa ∧
        t.fatal = s.fatal ∧ t.ps = s.ps ∧ t.cnt = s.cnt ∧ t.ev = s.ev ∧ t.con.cmd = s.con.cmd := by
  simp [consumerRest]

/-! ### FAADD -/

theorem ingestRest_of_acquireSlot {s t : State} {k : Nat} (h : acquireSlot s = some (t, k)) :
    ingestRest t = ingestRest s := by
  obtain ⟨c, -, -, rfl⟩ | ⟨-, -, rfl⟩ := acquireSlot_eq_some h <;> rfl

theorem ingestRest_startNextFrame (s : State) : ingestRest (startNextFrame s) = ingestRest s := by
  unfold startNextFrame
  split <;> rfl

theorem ingestRest_sequenceCheck (s : State) (q : Seq) :
    ingestRest (sequenceCheck s q) = ingestRest s := by
  cases h : sequenceLost s q with
  | false => rw [sequenceCheck_of_ok h]; rfl
  | true => rw [sequenceCheck_of_lost h]; rfl

theorem ingestRest_of_bindProfile {s t : State} {hb : HbrmtHeader} (h : bindProfile s hb = .ok t) :
    ingestRest t = ingestRest s := by
  obtain ⟨-, rfl⟩ | ⟨-, -, k, p, -, rfl⟩ := bindProfile_eq_ok h <;> rfl

theorem resyncFilter_leaves_ingestRest (s : State) (rtp : RtpView) (flags : CmdFlags) :
    (resyncFilter s rtp flags).Leaves ingestRest s := by
  unfold resyncFilter
  split <;> rfl

theorem endOfFrame_leaves_ingestRest (s : State) (k plen : Nat) (q : Seq) (flags : CmdFlags) :
    (endOfFrame s k plen q flags).Leaves ingestRest s := by
  unfold endOfFrame
  cases s.fa.profile with
  | none => trivial
  | some index =>
    dsimp only
    cases s.config.profileTable[index.toNat]? with
    | none => trivial
    | some p =>
      dsimp only
      split <;> rfl

theorem appendPayload_leaves_ingestRest (s : State) (k : Nat) (h : PacketHead) (flags : CmdFlags) :
    (appendPayload s k h flags).Leaves ingestRest s := by
  unfold appendPayload
  dsimp only
  split
  · rfl
  · cases memRead s .pkt (12 + h.headerLen) (payloadLen h) with
    | none => trivial
    | some bytes =>
      dsimp only
      cases hw : memWrite s (.frame k) s.fa.acc.toNat bytes with
      | none => trivial
      | some s1 =>
        obtain ⟨-, rfl⟩ := memWrite_eq_some.1 hw
        dsimp only
        split
        · exact (endOfFrame_leaves_ingestRest ..).congr rfl
        · rfl

theorem collectPacket_leaves_ingestRest (s : State) (k : Nat) (h : PacketHead) :
    (collectPacket s k h).Leaves ingestRest s := by
  have hs : ingestRest (sequenceCheck (startNextFrame s) h.rtp.seq) = ingestRest s :=
    (ingestRest_sequenceCheck _ _).trans (ingestRest_startNextFrame s)
  unfold collectPacket
  dsimp only
  split
  · exact (resyncFilter_leaves_ingestRest ..).congr hs
  · cases hb : bindProfile (sequenceCheck (startNextFrame s) h.rtp.seq) h.hb with
    | error st => exact hs
    | ok s3 =>
      exact (appendPayload_leaves_ingestRest ..).congr ((ingestRest_of_bindProfile hb).trans hs)

theorem faaddBody_leaves_ingestRest (s : State) : (faaddBody s).Leaves ingestRest s := by
  unfold faaddBody
  cases packetLength s with
  | none => rfl
  | some n =>
    dsimp only
    cases ht : transportCheck s n with
    | skip t code =>
      obtain ⟨kind, range, ⟨rfl, -⟩ | ⟨rfl, -⟩⟩ := transportCheck_eq_skip ht <;> rfl
    | pass h =>
      dsimp only
      cases ha : acquireSlot s with
      | none => trivial
      | some tk =>
        exact (collectPacket_leaves_ingestRest ..).congr (ingestRest_of_acquireSlot ha)

/-! ### PSREAD -/

theorem deliverExpecting_leaves_ingestRest (s : State) (l : Leg) (pkt : Packet) (next : Seq)
    (flags : CmdFlags) : (deliverExpecting s l pkt next flags).Leaves ingestRest s := by
  unfold deliverExpecting
  cases hd : deliver s l pkt with
  | none => trivial
  | some s1 =>
    obtain ⟨-, rfl⟩ := deliver_eq_some.1 hd
    rfl

theorem classify_leaves_ingestRest (s : State) (l : Leg) (q : Seq) (pkt : Packet)
    (flags : CmdFlags) : (classify s l q pkt flags).Leaves ingestRest s := by
  unfold classify
  cases s.ps.expected with
  | none => exact deliverExpecting_leaves_ingestRest ..
  | some e =>
    dsimp only
    split
    · exact deliverExpecting_leaves_ingestRest ..
    · split <;> rfl

theorem handleEvent_leaves_ingestRest (s : State) (ev : ArrivalEvent) (flags : CmdFlags) :
    (handleEvent s ev flags).Leaves ingestRest s := by
  unfold handleEvent
  split
  · rfl
  · cases lookup s ev.leg ev.seq with
    | none => rfl
    | some pkt => exact classify_leaves_ingestRest ..

theorem ingestRest_liveness (s : State) (l : Leg) (t : Time) :
    ingestRest (liveness s l t).1 = ingestRest s := by
  obtain ⟨-, h⟩ | ⟨-, h⟩ := liveness_eq s l t <;> rw [h] <;> rfl

theorem catchUp_leaves_ingestRest (s : State) : (catchUp s).Leaves ingestRest s := by
  unfold catchUp
  cases s.ps.expected with
  | none => trivial
  | some e =>
    dsimp only
    cases lookup s (otherLeg s.ps.master) e with
    | some pkt =>
      dsimp only
      cases hd : deliver s (otherLeg s.ps.master) pkt with
      | none => trivial
      | some s1 =>
        obtain ⟨-, rfl⟩ := deliver_eq_some.1 hd
        rfl
    | none =>
      dsimp only
      cases s.ps.held with
      | none => trivial
      | some h => rfl

theorem psreadBody_leaves_ingestRest (s : State) : (psreadBody s).Leaves ingestRest s := by
  unfold psreadBody
  split
  · exact catchUp_leaves_ingestRest s
  · cases s.ps.held with
    | some h => exact (deliverExpecting_leaves_ingestRest ..).congr rfl
    | none =>
      dsimp only
      cases s.ps.evq with
      | nil => trivial
      | cons ev rest =>
        exact (handleEvent_leaves_ingestRest ..).congr (ingestRest_liveness _ _ _)

/-! ### The other ingest commands -/

theorem w10getBody_endsLeaving_ingestRest (sp sl : Nat) (s : State) :
    (w10getBody sp sl s).EndsLeaving ingestRest s := by
  unfold w10getBody
  cases spaceOf s.config sp sl with
  | none => rfl
  | some space => dsimp only; split <;> rfl

theorem w10setBody_endsLeaving_ingestRest (sp sl : Nat) (s : State) :
    (w10setBody sp sl s).EndsLeaving ingestRest s := by
  unfold w10setBody
  cases spaceOf s.config sp sl with
  | none => rfl
  | some space =>
    dsimp only
    split
    · rfl
    · split
      · rfl
      · split <;> rfl

theorem rtpparseBody_endsLeaving_ingestRest (s : State) :
    (rtpparseBody s).EndsLeaving ingestRest s := by
  unfold rtpparseBody
  cases packetLength s with
  | none => rfl
  | some n => dsimp only; split <;> rfl

theorem hbrmtdecBody_endsLeaving_ingestRest (s : State) :
    (hbrmtdecBody s).EndsLeaving ingestRest s := by
  unfold hbrmtdecBody
  cases packetLength s with
  | none => rfl
  | some n =>
    dsimp only
    split
    · rfl
    · split <;> rfl

theorem profresBody_endsLeaving_ingestRest (s : State) : (profresBody s).EndsLeaving ingestRest s := by
  unfold profresBody
  dsimp only
  split <;> rfl

theorem crccompBody_endsLeaving_ingestRest (sp sl : Nat) (s : State) :
    (crccompBody sp sl s).EndsLeaving ingestRest s := by
  unfold crccompBody
  cases spaceOf s.config sp sl with
  | none => rfl
  | some space => dsimp only; split <;> rfl

theorem crccheckBody_endsLeaving_ingestRest (sp sl : Nat) (s : State) :
    (crccheckBody sp sl s).EndsLeaving ingestRest s := by
  unfold crccheckBody
  cases spaceOf s.config sp sl with
  | none => rfl
  | some space => dsimp only; split <;> rfl

/-- The ingest commands that never hold: all but FAADD and PSREAD (R11). -/
theorem commandBody_endsLeaving_ingestRest {i : Instr} (h : i.port = .ingest) (hf : i ≠ .faadd)
    (hp : i ≠ .psread) (s : State) : (commandBody i s).EndsLeaving ingestRest s := by
  cases i with
  | w10get sp sl => exact w10getBody_endsLeaving_ingestRest sp sl s
  | w10set sp sl => exact w10setBody_endsLeaving_ingestRest sp sl s
  | rtpparse => exact rtpparseBody_endsLeaving_ingestRest s
  | hbrmtdec => exact hbrmtdecBody_endsLeaving_ingestRest s
  | profres => exact profresBody_endsLeaving_ingestRest s
  | crccomp sp sl => exact crccompBody_endsLeaving_ingestRest sp sl s
  | crccheck sp sl => exact crccheckBody_endsLeaving_ingestRest sp sl s
  | crcwords | fareset | faabort | psinit => rfl
  | faadd => exact absurd rfl hf
  | psread => exact absurd rfl hp
  | mbnext | mbtype | mbextract | mbrelease => cases h

/-- No ingest command writes the model's own fields, the consumer port or ICMD. -/
theorem commandBody_leaves_ingestRest {i : Instr} (h : i.port = .ingest) (s : State) :
    (commandBody i s).Leaves ingestRest s := by
  by_cases hf : i = .faadd
  · subst hf
    exact faaddBody_leaves_ingestRest s
  · by_cases hp : i = .psread
    · subst hp
      exact psreadBody_leaves_ingestRest s
    · exact (commandBody_endsLeaving_ingestRest h hf hp s).leaves

/-! ### The consumer commands -/

theorem consumerRest_of_demuxFor {s t : State} {w : Word} {slot : Slot} {p : Profile}
    (h : demuxFor s w slot p = some t) : consumerRest t = consumerRest s := by
  unfold demuxFor at h
  split at h
  · obtain ⟨-, -, rfl⟩ := demux_eq_some.1 h
    rw [demuxGroups_eq]
    rfl
  · obtain rfl := Option.some.inj h
    rfl

theorem extractVideo_endsLeaving_consumerRest (s : State) (w : Word) (p : Profile) :
    (extractVideo s w p).EndsLeaving consumerRest s := by
  unfold extractVideo
  dsimp only
  split
  · rfl
  · cases picture s (tokenSpace w) p 0 p.activeHeight with
    | none => trivial
    | some bytes =>
      dsimp only
      cases hw : memWrite s .out 0 bytes with
      | none => trivial
      | some s1 =>
        obtain ⟨-, rfl⟩ := memWrite_eq_some.1 hw
        rfl

theorem mbextractBody_endsLeaving_consumerRest (s : State) :
    (mbextractBody s).EndsLeaving consumerRest s := by
  unfold mbextractBody
  dsimp only
  split
  · cases s.slots[tokenSlot s.con.ca0]? with
    | none => rfl
    | some slot =>
      dsimp only
      cases s.config.profileTable[slot.profile.toNat]? with
      | none => trivial
      | some p =>
        dsimp only
        cases hd : demuxFor s s.con.ca0 slot p with
        | none => trivial
        | some s1 =>
          have hs := consumerRest_of_demuxFor hd
          dsimp only
          split
          · exact hs
          · exact (extractVideo_endsLeaving_consumerRest ..).congr hs
  · rfl

theorem mbnextBody_leaves_consumerRest (s : State) : (mbnextBody s).Leaves consumerRest s := by
  unfold mbnextBody
  split <;> trivial

theorem mbtypeBody_endsLeaving_consumerRest (s : State) :
    (mbtypeBody s).EndsLeaving consumerRest s := by
  unfold mbtypeBody
  split <;> rfl

theorem mbreleaseBody_endsLeaving_consumerRest (s : State) :
    (mbreleaseBody s).EndsLeaving consumerRest s := by
  unfold mbreleaseBody
  dsimp only
  split
  · rfl
  · split <;> rfl

/-- The consumer commands that never hold: all but MBNEXT (R11). -/
theorem commandBody_endsLeaving_consumerRest {i : Instr} (h : i.port = .consumer)
    (hn : i ≠ .mbnext) (s : State) : (commandBody i s).EndsLeaving consumerRest s := by
  cases i with
  | mbtype => exact mbtypeBody_endsLeaving_consumerRest s
  | mbextract => exact mbextractBody_endsLeaving_consumerRest s
  | mbrelease => exact mbreleaseBody_endsLeaving_consumerRest s
  | mbnext => exact absurd rfl hn
  | _ => cases h

/-- No consumer command writes the model's own fields, the ingest side or CCMD. -/
theorem commandBody_leaves_consumerRest {i : Instr} (h : i.port = .consumer) (s : State) :
    (commandBody i s).Leaves consumerRest s := by
  by_cases hn : i = .mbnext
  · subst hn
    exact mbnextBody_leaves_consumerRest s
  · exact (commandBody_endsLeaving_consumerRest h hn s).leaves

end Sys2Proof.Machine
end

section
/-! SUPPORT. How an issued command ends, what a move of the environment can answer, and which of the
three turns a step is. -/

namespace Sys2Proof.Machine

open Sys2Proof

/-! ## Issuing a command -/

theorem issueIngest_of_decode {s : State} {i : Instr} (h : decodeOn .ingest s.ing.cmd = .ok i) :
    issueIngest s = exec i s := by
  simp [issueIngest, h]

theorem issueConsumer_of_decode {s : State} {i : Instr} (h : decodeOn .consumer s.con.cmd = .ok i) :
    issueConsumer s = exec i s := by
  simp [issueConsumer, h]

/-- An issued ingest command is over, or it is FAADD or PSREAD and holds (R11, R32, R153). -/
theorem issueIngest_ends_or_holds {s t : State} (h : issueIngest s = .next t) :
    (t.ing.stat.busy = false ∧ ingestRest t = ingestRest s) ∨
    (t = holdIngest s ∧ (decodeOn .ingest s.ing.cmd = .ok .faadd ∨
      decodeOn .ingest s.ing.cmd = .ok .psread)) := by
  cases hd : decodeOn .ingest s.ing.cmd with
  | error r =>
    simp only [issueIngest, hd, Host.Outcome.next.injEq] at h
    subst h
    exact .inl ⟨rfl, rfl⟩
  | ok i =>
    have hp : i.port = .ingest := (decodeOn_eq_ok.1 hd).2
    rw [issueIngest_of_decode hd, exec_of_ingest hp, runIngest_eq_next] at h
    obtain ⟨-, rfl⟩ | ⟨-, u, code, flags, hb, rfl⟩ | ⟨-, hb, rfl⟩ := h
    · exact .inl ⟨rfl, rfl⟩
    · have hu : ingestRest u = ingestRest s := (commandBody_leaves_ingestRest hp s).done hb
      exact .inl ⟨rfl, hu⟩
    · refine .inr ⟨rfl, ?_⟩
      by_contra hne
      simp only [Except.ok.injEq, not_or] at hne
      exact (commandBody_endsLeaving_ingestRest hp hne.1 hne.2 s).ne_hold hb

/-- An issued consumer command is over, or it is MBNEXT and holds (R11, R85, R153). -/
theorem issueConsumer_ends_or_holds {s t : State} (h : issueConsumer s = .next t) :
    (t.con.stat.busy = false ∧ consumerRest t = consumerRest s) ∨
    (t = holdConsumer s ∧ decodeOn .consumer s.con.cmd = .ok .mbnext) := by
  cases hd : decodeOn .consumer s.con.cmd with
  | error r =>
    simp only [issueConsumer, hd, Host.Outcome.next.injEq] at h
    subst h
    exact .inl ⟨rfl, rfl⟩
  | ok i =>
    have hp : i.port = .consumer := (decodeOn_eq_ok.1 hd).2
    rw [issueConsumer_of_decode hd, exec_of_consumer hp, runConsumer_eq_next] at h
    obtain ⟨-, rfl⟩ | ⟨-, u, code, flags, hb, rfl⟩ | ⟨-, hb, rfl⟩ := h
    · exact .inl ⟨rfl, rfl⟩
    · have hu : consumerRest u = consumerRest s := (commandBody_leaves_consumerRest hp s).done hb
      exact .inl ⟨rfl, hu⟩
    · refine .inr ⟨rfl, ?_⟩
      by_contra hne
      exact (commandBody_endsLeaving_consumerRest hp (by simpa using hne) s).ne_hold hb

/-! ## The environment's moves (R121) -/

@[simp] theorem takeMove_ing (s : State) : (takeMove s).ing = s.ing := by rw [takeMove_eq]

@[simp] theorem takeMove_con (s : State) : (takeMove s).con = s.con := by rw [takeMove_eq]

/-- An arrival changes the switch, the counters and the event record at most (R401). -/
theorem arrival_eq (s : State) (l : Leg) (bytes : List Byte) (t : Time) :
    arrival s l bytes t =
      { s with
        ps := (arrival s l bytes t).ps, cnt := (arrival s l bytes t).cnt
        ev := (arrival s l bytes t).ev } := by
  unfold arrival
  split
  · rfl
  · split
    · rfl
    · dsimp only
      split <;> rfl

/-- A write to a window changes the memory at most (R102). -/
theorem writeWindow_eq (s : State) (sp : Space) (o : Nat) (bs : List Byte) :
    writeWindow s sp o bs = { s with mem := (writeWindow s sp o bs).mem } := by
  induction bs generalizing s o with
  | nil => rfl
  | cons b rest ih =>
    unfold writeWindow
    split
    · exact ih (s.setSpaceByte sp o b) (o + 1)
    · exact ih s (o + 1)

/-- A host write of bytes changes the memory at most (R102). -/
theorem hostWriteBytes_eq (s : State) (a : Nat) (bs : List Byte) :
    hostWriteBytes s a bs = { s with mem := (hostWriteBytes s a bs).mem } := by
  unfold hostWriteBytes
  split
  · rfl
  · split
    · exact writeWindow_eq ..
    · rfl

/-- A register that only stores is an argument register, PKT_LEN or PS_THRESH: the status and command
registers and all that is not a port's or the switch's stay (R34 to R36, R87, R90). -/
theorem storeRegister_eq (s : State) (r : Reg) (v : Word) :
    storeRegister s r v =
      { s with
        ing :=
          { (storeRegister s r v).ing with
            cmd := s.ing.cmd, stat := s.ing.stat, ir0 := s.ing.ir0, ir1 := s.ing.ir1 }
        con :=
          { (storeRegister s r v).con with
            cmd := s.con.cmd, stat := s.con.stat, cr0 := s.con.cr0, cr1 := s.con.cr1 }
        ps := { s.ps with thresh := (storeRegister s r v).ps.thresh } } := by
  cases r <;> rfl

/-- What a host write can do: nothing, store a register, write buffer bytes, or issue a command on a
port that is not BUSY (R33, R86, R102). -/
theorem hostWrite_cases (s : State) (w : Width) (addr : Nat) (v : Word) (bytes : List Byte) :
    hostWrite s w addr v bytes = .next s ∨
    (∃ r, hostWrite s w addr v bytes = .next (storeRegister s r v)) ∨
    (∃ a, hostWrite s w addr v bytes = .next (hostWriteBytes s a bytes)) ∨
    (s.ing.stat.busy = false ∧
      hostWrite s w addr v bytes = issueIngest { s with ing := { s.ing with cmd := v } }) ∨
    (s.con.stat.busy = false ∧
      hostWrite s w addr v bytes = issueConsumer { s with con := { s.con with cmd := v } }) := by
  unfold hostWrite
  split
  · exact .inl rfl
  · split
    · split
      · exact .inl rfl
      · unfold writeRegister
        split
        · unfold writeIcmd
          cases s.ing.stat.busy <;> simp
        · unfold writeCcmd
          cases s.con.stat.busy <;> simp
        · exact .inr (.inl ⟨_, rfl⟩)
    · exact .inr (.inr (.inl ⟨_, rfl⟩))

/-- What a move can do: a host read, an arrival, hardware reset, or a host write (R121). -/
theorem perform_cases (s : State) (m : Move) :
    (∃ d, perform s m = .next { s with hostData := d }) ∨
    (∃ l bytes t, m = .arrive l bytes t ∧ perform s m = .next (arrival s l bytes t)) ∨
    (m = .hardReset ∧ perform s m = .next s.hardReset) ∨
    (∃ w addr v bytes, perform s m = hostWrite s w addr v bytes) := by
  cases m with
  | read w addr => exact .inl ⟨_, rfl⟩
  | arrive l bytes t => exact .inr (.inl ⟨l, bytes, t, rfl, rfl⟩)
  | hardReset => exact .inr (.inr (.inl ⟨rfl, rfl⟩))
  | writeByte addr v => exact .inr (.inr (.inr ⟨.byte, addr, v.setWidth 32, [v], rfl⟩))
  | writeHalf addr v => exact .inr (.inr (.inr ⟨.half, addr, v.setWidth 32, bytesOfHalf v, rfl⟩))
  | writeWord addr v => exact .inr (.inr (.inr ⟨.word, addr, v, bytesOfWord v, rfl⟩))

/-! ## Whose turn a step is (R11) -/

theorem step_of_not_wf {s : State} (h : s.config.wf = false) :
    step s = .refused .invalidConfiguration := by
  simp [step, h]

theorem step_of_ingest_lifted {s : State} (hw : s.config.wf = true)
    (hi : portLifted s .ingest s.ing.stat.busy s.ing.cmd = true) : step s = issueIngest s := by
  simp [step_of_wf hw, advance, retryIngest, hi]

theorem step_of_consumer_lifted {s : State} (hw : s.config.wf = true)
    (hi : portLifted s .ingest s.ing.stat.busy s.ing.cmd = false)
    (hc : portLifted s .consumer s.con.stat.busy s.con.cmd = true) : step s = issueConsumer s := by
  simp [step_of_wf hw, advance, retryIngest, retryConsumer, hi, hc]

theorem portLifted_of_decode {s : State} {p : Port} {w : Word} {i : Instr}
    (h : decodeOn p w = .ok i) : portLifted s p true w = holdLifted s i := by
  simp [portLifted, h]

@[simp] theorem portLifted_not_busy (s : State) (p : Port) (w : Word) :
    portLifted s p false w = false := rfl

/-- The ingest port's held command goes on in the step that finds its hold lifted. -/
theorem step_of_held_ingest {s : State} {i : Instr} (hw : s.config.wf = true)
    (hb : s.ing.stat.busy = true) (hd : decodeOn .ingest s.ing.cmd = .ok i)
    (hl : holdLifted s i = true) : step s = exec i s := by
  have hi : portLifted s .ingest s.ing.stat.busy s.ing.cmd = true := by
    rw [hb, portLifted_of_decode hd, hl]
  rw [step_of_ingest_lifted hw hi, issueIngest_of_decode hd]

/-- The consumer port's held command goes on in the step that finds its hold lifted, if the ingest
port has none to go on with. -/
theorem step_of_held_consumer {s : State} {i : Instr} (hw : s.config.wf = true)
    (hi : portLifted s .ingest s.ing.stat.busy s.ing.cmd = false) (hb : s.con.stat.busy = true)
    (hd : decodeOn .consumer s.con.cmd = .ok i) (hl : holdLifted s i = true) :
    step s = exec i s := by
  have hc : portLifted s .consumer s.con.stat.busy s.con.cmd = true := by
    rw [hb, portLifted_of_decode hd, hl]
  rw [step_of_consumer_lifted hw hi hc, issueConsumer_of_decode hd]

theorem holdLifted_of_fatal {s : State} (h : s.fatal.isSome = true) (i : Instr) :
    holdLifted s i = true := by
  simp [holdLifted, h]

theorem holdLifted_mbnext {s : State} (h : s.ready ≠ []) : holdLifted s .mbnext = true := by
  simp [holdLifted, h]

theorem holdLifted_psread {s : State} (h : s.ps.pending ≠ 0 ∨ s.ps.held ≠ none ∨ s.ps.evq ≠ []) :
    holdLifted s .psread = true := by
  simp only [holdLifted, Bool.or_eq_true, decide_eq_true_eq, Bool.not_eq_true',
    List.isEmpty_eq_false_iff, Option.isSome_iff_ne_none]
  tauto

theorem holdLifted_faadd {s : State} (h : ∃ t ∈ s.slots, t.state = .free) :
    holdLifted s .faadd = true := by
  obtain ⟨t, ht, hfree⟩ := h
  have ha : acquireSlot s ≠ none := fun hn => (acquireSlot_eq_none.1 hn).2 t ht hfree
  simp [holdLifted, Option.isSome_iff_ne_none.2 ha]

end Sys2Proof.Machine
end

section
/-! SUPPORT. The statements of 00_scope.md: held commands, the invariant of the ports, and the
configurations R5 refuses. -/

namespace Sys2Proof.Machine

open Sys2Proof

/-! ## Held commands -/

/-- The buffer type of a token is its bits [11:8] (R150, R151). -/
theorem bufferType_eq (t : Word) : bufferType t = (t.extractLsb' 8 4).setWidth 32 := by
  unfold bufferType tokenPart tokenKind
  congr 1
  ext i hi
  simp only [BitVec.getElem_append, BitVec.getElem_extractLsb']
  split
  · rfl
  · congr 1
    omega

/-- MBNEXT with a token queued takes the head (R370). -/
theorem exec_mbnext_cons {s : State} {w : Word} {rest : List Word} (hf : s.fatal = none)
    (hr : s.ready = w :: rest) :
    exec .mbnext s =
      .next
        (completeConsumer
          { s with ready := rest, con := { s.con with cr0 := w, cr1 := bufferType w } } .ok) := by
  have hb : mbnextBody s =
      .done { s with ready := rest, con := { s.con with cr0 := w, cr1 := bufferType w } } .ok {} := by
    simp [mbnextBody, hr]
  rw [exec_of_consumer rfl]
  exact runConsumer_of_done hf hb

/-- Settles O7: in each clause the hold is lifted, so the next step evaluates the command again. -/
theorem heldCommandCompletes : Obligations.HeldCommandCompletes := by
  refine ⟨?mbnext, ?psread, ?faadd, ?fatalIngest, ?fatalConsumer⟩
  case mbnext =>
    intro s w rest hw hf hi hb hcmd hr
    have hd : decodeOn .consumer s.con.cmd = .ok .mbnext := by rw [hcmd]; decide
    have hl : holdLifted s .mbnext = true := holdLifted_mbnext (by simp [hr])
    rw [step_of_held_consumer hw hi hb hd hl, exec_mbnext_cons hf hr, bufferType_eq]
    rfl
  case psread =>
    intro s hw hb hcmd h
    exact step_of_held_ingest hw hb (by rw [hcmd]; decide) (holdLifted_psread h)
  case faadd =>
    intro s hw hb hcmd h
    exact step_of_held_ingest hw hb (by rw [hcmd]; decide) (holdLifted_faadd h)
  case fatalIngest =>
    intro s i hw hf hb hd
    rw [step_of_held_ingest hw hb hd (holdLifted_of_fatal hf i),
      exec_of_fatal_ingest (decodeOn_eq_ok.1 hd).2 hf]
    rfl
  case fatalConsumer =>
    intro s i hw hf hi hb hd
    rw [step_of_held_consumer hw (by simp [hi]) hb hd (holdLifted_of_fatal hf i),
      exec_of_fatal_consumer (decodeOn_eq_ok.1 hd).2 hf]
    rfl

/-! ## The invariant of the ports -/

theorem PortInv.congr {s t : State} (h : PortInv s) (hib : t.ing.stat = s.ing.stat)
    (hic : t.ing.cmd = s.ing.cmd) (hcb : t.con.stat = s.con.stat) (hcc : t.con.cmd = s.con.cmd) :
    PortInv t where
  ingestHold := by rw [hib, hic]; exact h.ingestHold
  consumerHold := by rw [hcb, hcc]; exact h.consumerHold

/-- Whatever was on the ingest port before, an ingest command leaves the ports in order. -/
theorem portInv_of_issueIngest {s t : State}
    (hc : s.con.stat.busy = true → decodeOn .consumer s.con.cmd = .ok .mbnext)
    (h : issueIngest s = .next t) : PortInv t := by
  obtain ⟨hb, hr⟩ | ⟨rfl, hd⟩ := issueIngest_ends_or_holds h
  · obtain ⟨-, -, -, -, -, hcon, -⟩ := ingestRest_eq_iff.1 hr
    exact ⟨fun hb' => by simp [hb] at hb', by rw [hcon]; exact hc⟩
  · exact ⟨fun _ => hd, hc⟩

/-- Whatever was on the consumer port before, a consumer command leaves the ports in order. -/
theorem portInv_of_issueConsumer {s t : State}
    (hi : s.ing.stat.busy = true →
      decodeOn .ingest s.ing.cmd = .ok .faadd ∨ decodeOn .ingest s.ing.cmd = .ok .psread)
    (h : issueConsumer s = .next t) : PortInv t := by
  obtain ⟨hb, hr⟩ | ⟨rfl, hd⟩ := issueConsumer_ends_or_holds h
  · obtain ⟨-, -, -, -, -, hing, -⟩ := consumerRest_eq_iff.1 hr
    exact ⟨by rw [hing]; exact hi, fun hb' => by simp [hb] at hb'⟩
  · exact ⟨hi, fun _ => hd⟩

theorem portInv_of_hostWrite {s t : State} {w : Width} {addr : Nat} {v : Word} {bytes : List Byte}
    (h : PortInv s) (ht : hostWrite s w addr v bytes = .next t) : PortInv t := by
  obtain hs | ⟨r, hs⟩ | ⟨a, hs⟩ | ⟨-, hs⟩ | ⟨-, hs⟩ := hostWrite_cases s w addr v bytes <;>
    rw [hs] at ht
  · cases ht
    exact h
  · cases ht
    rw [storeRegister_eq]
    exact h.congr rfl rfl rfl rfl
  · cases ht
    rw [hostWriteBytes_eq]
    exact h.congr rfl rfl rfl rfl
  · exact portInv_of_issueIngest (s := { s with ing := { s.ing with cmd := v } }) h.consumerHold ht
  · exact portInv_of_issueConsumer (s := { s with con := { s.con with cmd := v } }) h.ingestHold ht

theorem portInv_of_perform {s t : State} {m : Move} (h : PortInv s)
    (ht : perform s m = .next t) : PortInv t := by
  obtain ⟨d, hs⟩ | ⟨l, bytes, time, -, hs⟩ | ⟨-, hs⟩ | ⟨w, addr, v, bytes, hs⟩ :=
    perform_cases s m <;> rw [hs] at ht
  · cases ht
    exact h.congr rfl rfl rfl rfl
  · cases ht
    rw [arrival_eq]
    exact h.congr rfl rfl rfl rfl
  · cases ht
    exact ⟨nofun, nofun⟩
  · exact portInv_of_hostWrite h ht

/-- Settles O17, by the three turns a step can be. -/
theorem portInvariantKept : Obligations.PortInvariantKept := by
  intro s t h ht
  obtain ⟨-, hs⟩ | ⟨-, -, hs⟩ | ⟨-, -, -, hs⟩ | ⟨-, -, -, hs⟩ := step_cases s <;> rw [hs] at ht
  case inl => cases ht
  case inr.inl => exact portInv_of_issueIngest h.consumerHold ht
  case inr.inr.inl => exact portInv_of_issueConsumer h.ingestHold ht
  case inr.inr.inr =>
    have htake : PortInv (takeMove s) := h.congr (by simp) (by simp) (by simp) (by simp)
    exact portInv_of_perform htake ht

/-! ## The buffer conditions (R5) -/

/-- Tmax bounds every record's transport frame (R5). -/
theorem transportFrameSizeBytes_le_maxTransport {c : Config} {p : Profile}
    (h : p ∈ c.profileTable) : p.transportFrameSizeBytes ≤ c.maxTransport := by
  unfold Config.maxTransport
  generalize c.profileTable = table at h ⊢
  induction table with
  | nil => cases h
  | cons q rest ih =>
    simp only [List.foldr_cons]
    rcases List.mem_cons.1 h with rfl | h
    · exact le_max_left ..
    · exact (ih h).trans (le_max_right ..)

/-- The three conditions of R5, spelled out. -/
theorem buffersOk_iff {c : Config} :
    c.buffersOk = true ↔
      c.maxTransport + c.maxPayload ≤ c.frameBufBytes + 1 ∧
        ((∀ p ∈ c.profileTable, p.multiplexed = false) ∨ c.maxTransport ≤ 2 * c.halfBufBytes) ∧
        ∀ p ∈ c.profileTable, p.activeHeight * p.activeWidthBytes ≤ c.outBytes := by
  simp only [Config.buffersOk, Bool.and_eq_true, Bool.or_eq_true,
    decide_eq_true_eq, List.all_eq_true, Bool.not_eq_true', and_assoc]

theorem buffersOk_of_wf {c : Config} (h : c.wf = true) : c.buffersOk = true := by
  simp only [Config.wf, Bool.and_eq_true] at h
  exact h.2

/-- Settles O11: a configuration the step accepts meets R5's conditions, so it is in none of the four
cases. -/
theorem invalidConfigurationRefused : Obligations.InvalidConfigurationRefused := by
  intro s hbad
  refine step_of_not_wf (Bool.eq_false_iff.2 fun hwf => ?_)
  obtain ⟨hframe, hhalf, hout⟩ := buffersOk_iff.1 (buffersOk_of_wf hwf)
  unfold Config.maxPayload at hframe
  obtain h | ⟨p, hp, h⟩ | ⟨⟨q, hq, hmul⟩, p, hp, h⟩ | ⟨p, hp, h⟩ := hbad
  · omega
  · have := transportFrameSizeBytes_le_maxTransport hp
    omega
  · have := transportFrameSizeBytes_le_maxTransport hp
    obtain hsingle | hhalf := hhalf
    · simp [hsingle q hq] at hmul
    · omega
  · exact absurd (hout p hp) (by omega)

end Sys2Proof.Machine
end

section
/-! SUPPORT. How each command with cases of its own completes: FAADD, PSREAD and MBEXTRACT, from the
pseudocode's innermost operation outwards. -/

namespace Sys2Proof.Machine

open Sys2Proof

/-! ## FAADD (R311) -/

/-- The state after the frame in slot `k`, of record `p` at `index`, is published (R319, R320). -/
def frameCompleted (s : State) (k : Nat) (index : BitVec 8) (p : Profile) : State :=
  let t := p.transportFrameSizeBytes
  let s1 :=
    publish
      { s with
        fa :=
          { s.fa with
            padding := BitVec.ofNat 32 (s.fa.acc.toNat - t)
            frameSize := if s.fa.frameSize = 0 then BitVec.ofNat 32 t else s.fa.frameSize } }
      k index p
  { s1 with
    cnt := { s1.cnt with frames := s1.cnt.frames + 1 }
    fa := { s1.fa with state := .complete, cur := none } }

/-- A frame ends in Fatal LENGTH or is published whole (R319). -/
theorem endOfFrame_eq_done {s u : State} {k plen : Nat} {q : Seq} {flags flags' : CmdFlags}
    {code : Status} (h : endOfFrame s k plen q flags = .done u code flags') :
    u = geometryFatal s .lengthFatal .length 0 q ∨
    ∃ index p, s.fa.profile = some index ∧ s.config.profileTable[index.toNat]? = some p ∧
      p.transportFrameSizeBytes ≤ s.fa.acc.toNat ∧ u = frameCompleted s k index p := by
  unfold endOfFrame at h
  split at h
  · cases h
  next index hindex =>
    split at h
    · cases h
    next p hp =>
      dsimp only at h
      split at h
      · cases h
        exact .inl rfl
      next hfits =>
        cases h
        exact .inr ⟨index, p, hindex, hp, by omega, rfl⟩

/-- The state after the payload of a packet is appended to the frame in slot `k` (R318). -/
def payloadAppended (s : State) (k : Nat) (h : PacketHead) : State :=
  { s with
    mem :=
      memSetAll s.mem ((Space.frame k).base + s.fa.acc.toNat)
        (s.spaceBytes .pkt (12 + h.headerLen) (payloadLen h))
    fa :=
      { s.fa with
        acc := s.fa.acc + BitVec.ofNat 32 (payloadLen h)
        pktcnt := s.fa.pktcnt + 1
        lastFrcount := h.hb.frcount } }

/-- A payload overflows the frame buffer, or is appended; a marker then ends the frame (R318,
R319). -/
theorem appendPayload_eq_done {s u : State} {k : Nat} {h : PacketHead} {flags flags' : CmdFlags}
    {code : Status} (hd : appendPayload s k h flags = .done u code flags') :
    u = geometryFatal s .overflowFatal .overflow 0 h.rtp.seq ∨
    (s.fa.acc.toNat + payloadLen h ≤ s.config.frameBufBytes ∧
      (u = payloadAppended s k h ∨
        endOfFrame (payloadAppended s k h) k (payloadLen h) h.rtp.seq flags =
          .done u code flags')) := by
  unfold appendPayload at hd
  dsimp only at hd
  split at hd
  · cases hd
    exact .inl rfl
  next hfits =>
    refine .inr ⟨by omega, ?_⟩
    split at hd
    · cases hd
    next bytes hr =>
      split at hd
      · cases hd
      next s1 hw =>
        obtain ⟨-, rfl⟩ := memRead_eq_some.1 hr
        obtain ⟨-, rfl⟩ := memWrite_eq_some.1 hw
        split at hd
        · exact .inr hd
        · cases hd
          exact .inl rfl

/-- The state after steps 3 and 4 of FAADD (R314, R315). -/
def packetTaken (s : State) (q : Seq) : State := sequenceCheck (startNextFrame s) q

/-- A packet with a slot is filtered while synchronisation is lost, raises Fatal PROFILE, or is
appended under a bound profile (R316 to R318). -/
theorem collectPacket_eq_done {s u : State} {k : Nat} {h : PacketHead} {code : Status}
    {flags : CmdFlags} (hd : collectPacket s k h = .done u code flags) :
    ((packetTaken s h.rtp.seq).fa.state = .waitingSync ∧
      (u = packetTaken s h.rtp.seq ∨
        u =
          { packetTaken s h.rtp.seq with
            fa :=
              { (packetTaken s h.rtp.seq).fa with
                state := .collecting, acc := 0, pktcnt := 0 } })) ∨
    (∃ stage, u = geometryFatal (packetTaken s h.rtp.seq) .profileFatal .profile stage h.rtp.seq) ∨
    ((packetTaken s h.rtp.seq).fa.state ≠ .waitingSync ∧
      ∃ s1 flags', bindProfile (packetTaken s h.rtp.seq) h.hb = .ok s1 ∧
        appendPayload s1 k h flags' = .done u code flags) := by
  unfold collectPacket at hd
  dsimp only at hd
  rw [← packetTaken] at hd
  split at hd
  next hw =>
    unfold resyncFilter at hd
    split at hd <;> cases hd
    · exact .inl ⟨hw, .inr rfl⟩
    · exact .inl ⟨hw, .inl rfl⟩
  next hw =>
    split at hd
    · cases hd
      exact .inr (.inl ⟨_, rfl⟩)
    next s1 hb => exact .inr (.inr ⟨hw, s1, _, hb, hd⟩)

/-- FAADD refuses PKT_LEN, skips the packet, or collects it in a slot (R311). -/
theorem faaddBody_eq_done {s u : State} {code : Status} {flags : CmdFlags}
    (h : faaddBody s = .done u code flags) :
    u = s ∨ (∃ n, transportCheck s n = .skip u code) ∨
    ∃ t k head, acquireSlot s = some (t, k) ∧ collectPacket t k head = .done u code flags := by
  unfold faaddBody at h
  split at h
  · cases h
    exact .inl rfl
  next n _ =>
    split at h
    next t c ht =>
      cases h
      exact .inr (.inl ⟨n, ht⟩)
    next head _ =>
      split at h
      · cases h
      next t k ha => exact .inr (.inr ⟨t, k, head, ha, h⟩)

/-! ## PSREAD (R409) -/

/-- The state after a delivery (R413). -/
def delivered (s : State) (l : Leg) (pkt : Packet) : State :=
  { s with
    mem := memSetAll s.mem Space.pkt.base pkt.bytes
    ing :=
      { s.ing with
        pktLen := BitVec.ofNat 16 pkt.bytes.length
        ir0 := pkt.seq.setWidth 32
        ir1 := (legIndex l).setWidth 32 } }

theorem deliverExpecting_eq_done {s u : State} {l : Leg} {pkt : Packet} {next : Seq}
    {flags flags' : CmdFlags} {code : Status}
    (h : deliverExpecting s l pkt next flags = .done u code flags') :
    u = { delivered s l pkt with ps := { s.ps with expected := some next } } := by
  unfold deliverExpecting at h
  split at h
  · cases h
  next s1 hd =>
    obtain ⟨-, rfl⟩ := deliver_eq_some.1 hd
    cases h
    rfl

/-- A master packet with an entry is delivered, is a duplicate, or opens a gap (R416). -/
theorem classify_eq_done {s u : State} {l : Leg} {q : Seq} {pkt : Packet}
    {flags flags' : CmdFlags} {code : Status} (h : classify s l q pkt flags = .done u code flags') :
    u = { delivered s l pkt with ps := { s.ps with expected := some (q + 1) } } ∨
    u = dropDuplicate s l q ∨
    ∃ e, s.ps.expected = some e ∧ u = holdGap s l e q pkt := by
  unfold classify at h
  split at h
  · exact .inl (deliverExpecting_eq_done h)
  next e he =>
    split at h
    · exact .inl (deliverExpecting_eq_done h)
    · split at h <;> cases h
      · exact .inr (.inl rfl)
      · exact .inr (.inr ⟨e, he, rfl⟩)

/-- A popped event is of the other leg, has lost its entry, or is classified (R409, R415, R416). -/
theorem handleEvent_eq_done {s u : State} {ev : ArrivalEvent} {flags flags' : CmdFlags}
    {code : Status} (h : handleEvent s ev flags = .done u code flags') :
    u = s ∨ u = overrun s ev.leg ev.seq ∨
    (ev.leg = s.ps.master ∧ ∃ pkt, lookup s ev.leg ev.seq = some pkt ∧
      classify s ev.leg ev.seq pkt flags = .done u code flags') := by
  unfold handleEvent at h
  split at h
  · cases h
    exact .inl rfl
  next hm =>
    split at h
    · cases h
      exact .inr (.inl rfl)
    next pkt hl => exact .inr (.inr ⟨not_not.1 hm, pkt, hl, h⟩)

/-- The state after the other leg's packet of the expected sequence `e` fills the gap (R411). -/
def gapFilled (s : State) (e : Seq) (pkt : Packet) : State :=
  { delivered s (otherLeg s.ps.master) pkt with
    cnt := { s.cnt with psRepaired := s.cnt.psRepaired + 1 }
    ps := { s.ps with expected := some (e + 1), pending := s.ps.pending - 1 } }

/-- The state after catch-up gives up at the held packet `h` (R411). -/
def gapGivenUp (s : State) (e : Seq) (h : HeldPacket) : State :=
  { abortFrame
      (recordEvent { s with cnt := { s.cnt with psUnrecov := s.cnt.psUnrecov + 1 } } .psUnrecov
        (some (otherLeg s.ps.master)) (some (e, h.packet.seq - 1))) with
    ps := { s.ps with pending := 0, expected := some h.packet.seq } }

/-- Catch-up fills one sequence number from the other leg or gives the gap up (R411). -/
theorem catchUp_eq_done {s u : State} {code : Status} {flags : CmdFlags}
    (h : catchUp s = .done u code flags) :
    ∃ e, s.ps.expected = some e ∧
      ((∃ pkt, u = gapFilled s e pkt) ∨
        ∃ held, s.ps.held = some held ∧ u = gapGivenUp s e held) := by
  unfold catchUp at h
  split at h
  · cases h
  next e he =>
    dsimp only at h
    split at h
    next pkt _ =>
      split at h
      · cases h
      next s1 hd =>
        obtain ⟨-, rfl⟩ := deliver_eq_some.1 hd
        cases h
        exact ⟨e, he, .inl ⟨pkt, rfl⟩⟩
    · split at h
      · cases h
      next held hheld =>
        cases h
        exact ⟨e, he, .inr ⟨held, hheld, rfl⟩⟩

/-- PSREAD catches up, delivers the held packet, or handles the event it pops (R409, R410). -/
theorem psreadBody_eq_done {s u : State} {code : Status} {flags : CmdFlags}
    (h : psreadBody s = .done u code flags) :
    (s.ps.pending ≠ 0 ∧ catchUp s = .done u code flags) ∨
    (s.ps.pending = 0 ∧ ∃ held, s.ps.held = some held ∧
      u =
        { delivered s held.leg held.packet with
          ps := { s.ps with held := none, expected := some (held.packet.seq + 1) } }) ∨
    (s.ps.pending = 0 ∧ s.ps.held = none ∧ ∃ ev rest flags', s.ps.evq = ev :: rest ∧
      handleEvent (liveness { s with ps := { s.ps with evq := rest } } ev.leg ev.time).1 ev flags' =
        .done u code flags) := by
  unfold psreadBody at h
  split at h
  next hp => exact .inl ⟨hp, h⟩
  next hp =>
    have hp := not_not.1 hp
    split at h
    next held hheld => exact .inr (.inl ⟨hp, held, hheld, deliverExpecting_eq_done h⟩)
    next hheld =>
      split at h
      · cases h
      next ev rest hevq => exact .inr (.inr ⟨hp, hheld, ev, rest, _, hevq, h⟩)

/-! ## MBEXTRACT (R381) -/

/-- The demux due writes the memory and sets the slot's `demuxed`; with none due nothing changes
(R382). -/
theorem demuxFor_eq_some {s t : State} {w : Word} {slot : Slot} {p : Profile}
    (h : demuxFor s w slot p = some t) :
    t = s ∨
    ∃ m, t = { s with
               mem := m
               slots := modifySlot s.slots (tokenSlot w) fun x => { x with demuxed := true } } := by
  unfold demuxFor at h
  split at h
  · obtain ⟨-, -, rfl⟩ := demux_eq_some.1 h
    rw [demuxGroups_eq]
    exact .inr ⟨_, rfl⟩
  · cases h
    exact .inl rfl

theorem extractVideo_eq_done {s u : State} {w : Word} {p : Profile} {code : Status}
    {flags : CmdFlags} (h : extractVideo s w p = .done u code flags) :
    ∃ m d, u = { s with mem := m, con := { s.con with cr0 := d } } := by
  unfold extractVideo at h
  dsimp only at h
  split at h
  · cases h
    exact ⟨_, _, rfl⟩
  · split at h
    · cases h
    · split at h
      · cases h
      next s1 hw =>
        obtain ⟨-, rfl⟩ := memWrite_eq_some.1 hw
        cases h
        exact ⟨_, _, rfl⟩

/-- MBEXTRACT writes the memory, CR0 and the slot's `demuxed` at most (R381, R382). -/
theorem mbextractBody_eq_done {s u : State} {code : Status} {flags : CmdFlags}
    (h : mbextractBody s = .done u code flags) :
    ∃ m d,
      u = { s with mem := m, con := { s.con with cr0 := d } } ∨
      u = { s with
            mem := m, con := { s.con with cr0 := d }
            slots :=
              modifySlot s.slots (tokenSlot s.con.ca0) fun x => { x with demuxed := true } } := by
  unfold mbextractBody at h
  dsimp only at h
  split at h
  · split at h
    · cases h
      exact ⟨_, _, .inl rfl⟩
    · split at h
      · cases h
      · split at h
        · cases h
        next s1 hs =>
          have hu : ∃ m d, u = { s1 with mem := m, con := { s1.con with cr0 := d } } := by
            split at h
            · cases h
              exact ⟨_, _, rfl⟩
            · exact extractVideo_eq_done h
          obtain ⟨m, d, rfl⟩ := hu
          obtain rfl | ⟨m', rfl⟩ := demuxFor_eq_some hs
          · exact ⟨m, d, .inl rfl⟩
          · exact ⟨m, d, .inr rfl⟩
  · cases h
    exact ⟨_, _, .inl rfl⟩

end Sys2Proof.Machine
end

section
/-! SUPPORT. What each command may write, said once for all commands, and the statement about the
registers of a command. -/

namespace Sys2Proof.Machine

open Sys2Proof

/-! ## What a command may write -/

/-- The state with everything command `i` may write, its port's status included, set to its reset
value: two states with one `kept i` agree on all that `i` leaves alone. -/
def kept (i : Instr) (s : State) : State :=
  let r := State.reset
  match i with
  | .w10get _ _ => { s with ing := { s.ing with stat := r.ing.stat, ir0 := 0 } }
  | .w10set _ _ => { s with ing := { s.ing with stat := r.ing.stat }, mem := [] }
  | .rtpparse =>
    { s with
      ing := { s.ing with stat := r.ing.stat, ir0 := 0 }
      hdr := { s.hdr with rtpHdr := 0, rtpTs := 0, rtpSsrc := 0 } }
  | .hbrmtdec =>
    { s with
      ing := { s.ing with stat := r.ing.stat, ir0 := 0 }
      hdr := { s.hdr with hbW0 := 0, hbW1 := 0, hbTs := 0, hbHdrLen := 0, hbPayLen := 0 } }
  | .profres =>
    { s with
      ing := { s.ing with stat := r.ing.stat, ir0 := 0, ir1 := 0 }
      hdr := { s.hdr with profIndex := 0, profStage := 0 } }
  | .crccomp _ _ =>
    { s with
      ing := { s.ing with stat := r.ing.stat, ir0 := 0 }, hdr := { s.hdr with crcRem := 0 } }
  | .crcwords =>
    { s with
      ing := { s.ing with stat := r.ing.stat, ir0 := 0, ir1 := 0 }
      hdr := { s.hdr with crcWord0 := 0, crcWord1 := 0 } }
  | .crccheck _ _ =>
    { s with
      ing := { s.ing with stat := r.ing.stat, ir0 := 0, ir1 := 0 }
      hdr := { s.hdr with crcRem := 0, crcWord0 := 0, crcWord1 := 0 } }
  | .fareset | .faabort => { s with ing := { s.ing with stat := r.ing.stat }, fa := r.fa }
  | .faadd =>
    { s with
      ing := { s.ing with stat := r.ing.stat }
      fa := r.fa, fatal := none, cnt := r.cnt, ev := r.ev, slots := [], ready := [], mem := [] }
  | .psinit =>
    { s with
      ing := { s.ing with stat := r.ing.stat }, ps := { r.ps with thresh := s.ps.thresh } }
  | .psread =>
    { s with
      ing := { s.ing with stat := r.ing.stat, pktLen := 0, ir0 := 0, ir1 := 0 }
      fa := r.fa, ps := { r.ps with thresh := s.ps.thresh }, cnt := r.cnt, ev := r.ev, mem := [] }
  | .mbnext => { s with con := { s.con with stat := r.con.stat, cr0 := 0, cr1 := 0 }, ready := [] }
  | .mbtype => { s with con := { s.con with stat := r.con.stat, cr1 := 0 } }
  | .mbextract =>
    { s with con := { s.con with stat := r.con.stat, cr0 := 0 }, slots := [], mem := [] }
  | .mbrelease => { s with con := { s.con with stat := r.con.stat }, slots := [], ready := [] }

theorem CmdResult.leaves_of_done {α : Type} {r : CmdResult} {view : State → α} {s : State}
    (h : ∀ u code flags, r = .done u code flags → view u = view s) : r.Leaves view s := by
  cases r with
  | done u c f => exact h u c f rfl
  | hold => trivial
  | stop f => trivial

theorem kept_packetTaken (s : State) (q : Seq) : kept .faadd (packetTaken s q) = kept .faadd s := by
  have hstart : kept .faadd (startNextFrame s) = kept .faadd s := by
    unfold startNextFrame
    split <;> rfl
  refine Eq.trans ?_ hstart
  unfold packetTaken
  cases h : sequenceLost (startNextFrame s) q with
  | false => rw [sequenceCheck_of_ok h]; rfl
  | true => rw [sequenceCheck_of_lost h]; rfl

theorem kept_of_appendPayload {s u : State} {k : Nat} {h : PacketHead} {flags flags' : CmdFlags}
    {code : Status} (hd : appendPayload s k h flags = .done u code flags') :
    kept .faadd u = kept .faadd s := by
  obtain rfl | ⟨-, rfl | he⟩ := appendPayload_eq_done hd
  · rfl
  · rfl
  · obtain rfl | ⟨index, p, -, -, -, rfl⟩ := endOfFrame_eq_done he <;> rfl

theorem faaddBody_keeps (s : State) : (faaddBody s).Leaves (kept .faadd) s := by
  refine CmdResult.leaves_of_done fun u code flags hd => ?_
  obtain rfl | ⟨n, hskip⟩ | ⟨t, k, head, ha, hc⟩ := faaddBody_eq_done hd
  · rfl
  · obtain ⟨kind, range, ⟨rfl, -⟩ | ⟨rfl, -⟩⟩ := transportCheck_eq_skip hskip <;> rfl
  · have ht : kept .faadd t = kept .faadd s := by
      obtain ⟨c, -, -, rfl⟩ | ⟨-, -, rfl⟩ := acquireSlot_eq_some ha <;> rfl
    have htaken := (kept_packetTaken t head.rtp.seq).trans ht
    obtain ⟨-, rfl | rfl⟩ | ⟨stage, rfl⟩ | ⟨-, s1, _, hb, happ⟩ := collectPacket_eq_done hc
    · exact htaken
    · exact htaken
    · exact htaken
    · have hbind : kept .faadd s1 = kept .faadd (packetTaken t head.rtp.seq) := by
        obtain ⟨-, rfl⟩ | ⟨-, -, _, _, -, rfl⟩ := bindProfile_eq_ok hb <;> rfl
      exact (kept_of_appendPayload happ).trans (hbind.trans htaken)

theorem kept_liveness (s : State) (l : Leg) (t : Time) :
    kept .psread (liveness s l t).1 = kept .psread s := by
  have hthresh : (refreshLegs s.ps l t).thresh = s.ps.thresh := by cases l <;> rfl
  obtain ⟨-, h⟩ | ⟨-, h⟩ := liveness_eq s l t <;> rw [h] <;> simp [kept, hthresh]

theorem kept_of_handleEvent {s u : State} {ev : ArrivalEvent} {flags flags' : CmdFlags}
    {code : Status} (h : handleEvent s ev flags = .done u code flags') :
    kept .psread u = kept .psread s := by
  obtain rfl | rfl | ⟨-, pkt, -, hc⟩ := handleEvent_eq_done h
  · rfl
  · rfl
  · obtain rfl | rfl | ⟨e, -, rfl⟩ := classify_eq_done hc <;> rfl

theorem psreadBody_keeps (s : State) : (psreadBody s).Leaves (kept .psread) s := by
  refine CmdResult.leaves_of_done fun u code flags hd => ?_
  obtain ⟨-, hc⟩ | ⟨-, held, -, rfl⟩ | ⟨-, -, ev, rest, _, -, he⟩ := psreadBody_eq_done hd
  · obtain ⟨e, -, ⟨pkt, rfl⟩ | ⟨held, -, rfl⟩⟩ := catchUp_eq_done hc <;> rfl
  · rfl
  · exact (kept_of_handleEvent he).trans (kept_liveness ..)

theorem mbextractBody_keeps (s : State) : (mbextractBody s).Leaves (kept .mbextract) s := by
  refine CmdResult.leaves_of_done fun u code flags hd => ?_
  obtain ⟨m, d, rfl | rfl⟩ := mbextractBody_eq_done hd <;> rfl

/-- Every command that completes has written nothing but what `kept` names. -/
theorem commandBody_keeps (i : Instr) (s : State) : (commandBody i s).Leaves (kept i) s := by
  cases i with
  | faadd => exact faaddBody_keeps s
  | psread => exact psreadBody_keeps s
  | mbextract => exact mbextractBody_keeps s
  | fareset | faabort | psinit | crcwords => rfl
  | w10get sp sl =>
    change (w10getBody sp sl s).Leaves _ s
    unfold w10getBody
    split
    · rfl
    · dsimp only; split <;> rfl
  | w10set sp sl =>
    change (w10setBody sp sl s).Leaves _ s
    unfold w10setBody
    split
    · rfl
    · dsimp only; repeat' split
      all_goals rfl
  | rtpparse =>
    change (rtpparseBody s).Leaves _ s
    unfold rtpparseBody
    split
    · rfl
    · split <;> rfl
  | hbrmtdec =>
    change (hbrmtdecBody s).Leaves _ s
    unfold hbrmtdecBody
    split
    · rfl
    · dsimp only; repeat' split
      all_goals rfl
  | profres =>
    change (profresBody s).Leaves _ s
    unfold profresBody
    dsimp only
    split <;> rfl
  | crccomp sp sl =>
    change (crccompBody sp sl s).Leaves _ s
    unfold crccompBody
    split
    · rfl
    · dsimp only; split <;> rfl
  | crccheck sp sl =>
    change (crccheckBody sp sl s).Leaves _ s
    unfold crccheckBody
    split
    · rfl
    · dsimp only; split <;> rfl
  | mbnext =>
    change (mbnextBody s).Leaves _ s
    unfold mbnextBody
    split
    · trivial
    · rfl
  | mbtype =>
    change (mbtypeBody s).Leaves _ s
    unfold mbtypeBody
    split <;> rfl
  | mbrelease =>
    change (mbreleaseBody s).Leaves _ s
    unfold mbreleaseBody
    dsimp only
    split
    · rfl
    · split <;> rfl

theorem kept_completeIngest {i : Instr} (h : i.port = .ingest) (s : State) (code : Status)
    (flags : CmdFlags) : kept i (completeIngest s code flags) = kept i s := by
  cases i <;> cases h <;> rfl

theorem kept_holdIngest {i : Instr} (h : i.port = .ingest) (s : State) :
    kept i (holdIngest s) = kept i s := by
  cases i <;> cases h <;> rfl

theorem kept_completeConsumer {i : Instr} (h : i.port = .consumer) (s : State) (code : Status) :
    kept i (completeConsumer s code) = kept i s := by
  cases i <;> cases h <;> rfl

theorem kept_holdConsumer {i : Instr} (h : i.port = .consumer) (s : State) :
    kept i (holdConsumer s) = kept i s := by
  cases i <;> cases h <;> rfl

/-- A command, gated, completed or held, leaves alone all that it may not write. -/
theorem exec_keeps {i : Instr} {s t : State} (h : exec i s = .next t) : kept i t = kept i s := by
  cases hp : i.port with
  | ingest =>
    rw [exec_of_ingest hp, runIngest_eq_next] at h
    obtain ⟨-, rfl⟩ | ⟨-, u, code, flags, hb, rfl⟩ | ⟨-, -, rfl⟩ := h
    · exact kept_completeIngest hp ..
    · exact (kept_completeIngest hp ..).trans ((commandBody_keeps i s).done hb)
    · exact kept_holdIngest hp s
  | consumer =>
    rw [exec_of_consumer hp, runConsumer_eq_next] at h
    obtain ⟨-, rfl⟩ | ⟨-, u, code, flags, hb, rfl⟩ | ⟨-, -, rfl⟩ := h
    · exact kept_completeConsumer hp ..
    · exact (kept_completeConsumer hp ..).trans ((commandBody_keeps i s).done hb)
    · exact kept_holdConsumer hp s

/-! ## The parts of a state a command keeps -/

@[simp] theorem kept_config (i : Instr) (s : State) : (kept i s).config = s.config := by
  cases i <;> rfl

@[simp] theorem kept_agenda (i : Instr) (s : State) : (kept i s).agenda = s.agenda := by
  cases i <;> rfl

@[simp] theorem kept_moves (i : Instr) (s : State) : (kept i s).moves = s.moves := by
  cases i <;> rfl

@[simp] theorem kept_epoch (i : Instr) (s : State) : (kept i s).epoch = s.epoch := by
  cases i <;> rfl

@[simp] theorem kept_hostData (i : Instr) (s : State) : (kept i s).hostData = s.hostData := by
  cases i <;> rfl

@[simp] theorem kept_ing_cmd (i : Instr) (s : State) : (kept i s).ing.cmd = s.ing.cmd := by
  cases i <;> rfl

@[simp] theorem kept_ia0 (i : Instr) (s : State) : (kept i s).ing.ia0 = s.ing.ia0 := by
  cases i <;> rfl

@[simp] theorem kept_ia1 (i : Instr) (s : State) : (kept i s).ing.ia1 = s.ing.ia1 := by
  cases i <;> rfl

@[simp] theorem kept_ia2 (i : Instr) (s : State) : (kept i s).ing.ia2 = s.ing.ia2 := by
  cases i <;> rfl

@[simp] theorem kept_ia3 (i : Instr) (s : State) : (kept i s).ing.ia3 = s.ing.ia3 := by
  cases i <;> rfl

@[simp] theorem kept_thresh (i : Instr) (s : State) : (kept i s).ps.thresh = s.ps.thresh := by
  cases i <;> rfl

@[simp] theorem kept_con_cmd (i : Instr) (s : State) : (kept i s).con.cmd = s.con.cmd := by
  cases i <;> rfl

@[simp] theorem kept_ca0 (i : Instr) (s : State) : (kept i s).con.ca0 = s.con.ca0 := by
  cases i <;> rfl

@[simp] theorem kept_ca1 (i : Instr) (s : State) : (kept i s).con.ca1 = s.con.ca1 := by
  cases i <;> rfl

section

variable {i : Instr} {s t : State}

theorem pktLen_of_kept (h : kept i t = kept i s) (hi : i ≠ .psread) :
    t.ing.pktLen = s.ing.pktLen := by
  cases i with
  | psread => exact absurd rfl hi
  | _ => exact (congrArg (·.ing.pktLen) h :)

theorem con_of_kept (h : kept i t = kept i s) (hi : i.port = .ingest) : t.con = s.con := by
  cases i with
  | mbnext | mbtype | mbextract | mbrelease => cases hi
  | _ => exact (congrArg State.con h :)

theorem ingestSide_of_kept (h : kept i t = kept i s) (hi : i.port = .consumer) :
    t.ing = s.ing ∧ t.hdr = s.hdr ∧ t.fa = s.fa ∧ t.fatal = s.fatal ∧ t.ps = s.ps ∧
      t.cnt = s.cnt ∧ t.ev = s.ev := by
  cases i with
  | mbnext | mbtype | mbextract | mbrelease =>
    exact ⟨(congrArg State.ing h :), (congrArg State.hdr h :), (congrArg State.fa h :),
      (congrArg State.fatal h :), (congrArg State.ps h :), (congrArg State.cnt h :),
      (congrArg State.ev h :)⟩
  | _ => cases hi

theorem ir0_of_kept (h : kept i t = kept i s)
    (hw : ∀ sp sl, i ≠ .w10get sp sl ∧ i ≠ .crccomp sp sl ∧ i ≠ .crccheck sp sl)
    (hr : i ≠ .rtpparse) (hh : i ≠ .hbrmtdec) (hp : i ≠ .profres) (hc : i ≠ .crcwords)
    (hps : i ≠ .psread) : t.ing.ir0 = s.ing.ir0 := by
  cases i with
  | w10get sp sl => exact absurd rfl (hw sp sl).1
  | crccomp sp sl => exact absurd rfl (hw sp sl).2.1
  | crccheck sp sl => exact absurd rfl (hw sp sl).2.2
  | rtpparse | hbrmtdec | profres | crcwords | psread => contradiction
  | _ => exact (congrArg (·.ing.ir0) h :)

theorem ir1_of_kept (h : kept i t = kept i s) (hw : ∀ sp sl, i ≠ .crccheck sp sl)
    (hp : i ≠ .profres) (hc : i ≠ .crcwords) (hps : i ≠ .psread) : t.ing.ir1 = s.ing.ir1 := by
  cases i with
  | crccheck sp sl => exact absurd rfl (hw sp sl)
  | profres | crcwords | psread => contradiction
  | _ => exact (congrArg (·.ing.ir1) h :)

theorem cr0_of_kept (h : kept i t = kept i s) (hn : i ≠ .mbnext) (he : i ≠ .mbextract) :
    t.con.cr0 = s.con.cr0 := by
  cases i with
  | mbnext | mbextract => contradiction
  | _ => exact (congrArg (·.con.cr0) h :)

theorem cr1_of_kept (h : kept i t = kept i s) (hn : i ≠ .mbnext) (ht : i ≠ .mbtype) :
    t.con.cr1 = s.con.cr1 := by
  cases i with
  | mbnext | mbtype => contradiction
  | _ => exact (congrArg (·.con.cr1) h :)

theorem cnt_ev_of_kept (h : kept i t = kept i s) (hf : i ≠ .faadd) (hp : i ≠ .psread) :
    t.cnt = s.cnt ∧ t.ev = s.ev := by
  cases i with
  | faadd | psread => contradiction
  | _ => exact ⟨(congrArg State.cnt h :), (congrArg State.ev h :)⟩

theorem fatal_of_kept (h : kept i t = kept i s) (hf : i ≠ .faadd) : t.fatal = s.fatal := by
  cases i with
  | faadd => contradiction
  | _ => exact (congrArg State.fatal h :)

theorem fa_of_kept (h : kept i t = kept i s) (hf : i ≠ .faadd) (hr : i ≠ .fareset)
    (ha : i ≠ .faabort) (hp : i ≠ .psread) : t.fa = s.fa := by
  cases i with
  | faadd | fareset | faabort | psread => contradiction
  | _ => exact (congrArg State.fa h :)

theorem ps_of_kept (h : kept i t = kept i s) (hp : i ≠ .psread) (hi : i ≠ .psinit) :
    t.ps = s.ps := by
  cases i with
  | psread | psinit => contradiction
  | _ => exact (congrArg State.ps h :)

theorem ready_of_kept (h : kept i t = kept i s) (hf : i ≠ .faadd) (hn : i ≠ .mbnext)
    (hr : i ≠ .mbrelease) : t.ready = s.ready := by
  cases i with
  | faadd | mbnext | mbrelease => contradiction
  | _ => exact (congrArg State.ready h :)

theorem slots_of_kept (h : kept i t = kept i s) (hf : i ≠ .faadd) (he : i ≠ .mbextract)
    (hr : i ≠ .mbrelease) : t.slots = s.slots := by
  cases i with
  | faadd | mbextract | mbrelease => contradiction
  | _ => exact (congrArg State.slots h :)

end

/-- Settles O23: each clause is a part of the state that `kept` keeps. -/
theorem commandsWriteOnlyTheirRegisters : Obligations.CommandsWriteOnlyTheirRegisters := by
  intro i s t h
  have hk := exec_keeps h
  have agree {α : Type} (f : State → α) : f (kept i t) = f (kept i s) := congrArg f hk
  refine ⟨⟨?_, ?_, ?_, ?_, ?_⟩, ⟨?_, ?_, ?_, ?_, ?_, ?_, ?_, ?_, ?_⟩, pktLen_of_kept hk,
    con_of_kept hk, ingestSide_of_kept hk, ?hdr, ir0_of_kept hk, ir1_of_kept hk, cr0_of_kept hk,
    cr1_of_kept hk, cnt_ev_of_kept hk, fatal_of_kept hk, fa_of_kept hk, ps_of_kept hk,
    ready_of_kept hk, slots_of_kept hk⟩
  case hdr =>
    cases i with
    | rtpparse =>
      exact (congrArg (fun x => { x.hdr with
        rtpHdr := t.hdr.rtpHdr, rtpTs := t.hdr.rtpTs, rtpSsrc := t.hdr.rtpSsrc }) hk :)
    | hbrmtdec =>
      exact (congrArg (fun x => { x.hdr with
        hbW0 := t.hdr.hbW0, hbW1 := t.hdr.hbW1, hbTs := t.hdr.hbTs
        hbHdrLen := t.hdr.hbHdrLen, hbPayLen := t.hdr.hbPayLen }) hk :)
    | profres =>
      exact (congrArg (fun x => { x.hdr with
        profIndex := t.hdr.profIndex, profStage := t.hdr.profStage }) hk :)
    | crccomp sp sl => exact (congrArg (fun x => { x.hdr with crcRem := t.hdr.crcRem }) hk :)
    | crcwords =>
      exact (congrArg (fun x => { x.hdr with
        crcWord0 := t.hdr.crcWord0, crcWord1 := t.hdr.crcWord1 }) hk :)
    | crccheck sp sl =>
      exact (congrArg (fun x => { x.hdr with
        crcRem := t.hdr.crcRem, crcWord0 := t.hdr.crcWord0, crcWord1 := t.hdr.crcWord1 }) hk :)
    | _ => exact (congrArg State.hdr hk :)
  · simpa using agree (·.config)
  · simpa using agree (·.agenda)
  · simpa using agree (·.moves)
  · simpa using agree (·.epoch)
  · simpa using agree (·.hostData)
  · simpa using agree (·.ing.cmd)
  · simpa using agree (·.ing.ia0)
  · simpa using agree (·.ing.ia1)
  · simpa using agree (·.ing.ia2)
  · simpa using agree (·.ing.ia3)
  · simpa using agree (·.ps.thresh)
  · simpa using agree (·.con.cmd)
  · simpa using agree (·.con.ca0)
  · simpa using agree (·.con.ca1)

end Sys2Proof.Machine
end

section
/-! SUPPORT. What a step can do to the units of the block, and the statements that follow: the
configuration never changes, the counters only count. -/

namespace Sys2Proof.Machine

open Sys2Proof

/-! ## What a step can do to the units -/

/-- The block without what the environment and the ports' own logic write beside the commands: the
schedule, the ports, the memory and PS_THRESH set to their reset values. -/
def units (s : State) : State :=
  { s with
    agenda := [], moves := 0, hostData := 0, ing := State.reset.ing, con := State.reset.con
    ps := { s.ps with thresh := 0 }, mem := [] }

/-- The pseudocode of some command, evaluated on `s`, completes with the state `u`. -/
def Completes (s u : State) : Prop := ∃ i code flags, commandBody i s = .done u code flags

theorem units_of_issueIngest {s t : State} (h : issueIngest s = .next t) :
    units t = units s ∨ ∃ u, Completes s u ∧ units t = units u := by
  cases hd : decodeOn .ingest s.ing.cmd with
  | error r =>
    simp only [issueIngest, hd, Host.Outcome.next.injEq] at h
    subst h
    exact .inl rfl
  | ok i =>
    rw [issueIngest_of_decode hd, exec_of_ingest (decodeOn_eq_ok.1 hd).2, runIngest_eq_next] at h
    obtain ⟨-, rfl⟩ | ⟨-, u, code, flags, hb, rfl⟩ | ⟨-, -, rfl⟩ := h
    · exact .inl rfl
    · exact .inr ⟨u, ⟨i, code, flags, hb⟩, rfl⟩
    · exact .inl rfl

theorem units_of_issueConsumer {s t : State} (h : issueConsumer s = .next t) :
    units t = units s ∨ ∃ u, Completes s u ∧ units t = units u := by
  cases hd : decodeOn .consumer s.con.cmd with
  | error r =>
    simp only [issueConsumer, hd, Host.Outcome.next.injEq] at h
    subst h
    exact .inl rfl
  | ok i =>
    rw [issueConsumer_of_decode hd, exec_of_consumer (decodeOn_eq_ok.1 hd).2,
      runConsumer_eq_next] at h
    obtain ⟨-, rfl⟩ | ⟨-, u, code, flags, hb, rfl⟩ | ⟨-, -, rfl⟩ := h
    · exact .inl rfl
    · exact .inr ⟨u, ⟨i, code, flags, hb⟩, rfl⟩
    · exact .inl rfl

/-- A host write stores where no unit is, or issues a command with its word stored. -/
theorem units_of_hostWrite {s t : State} {w : Width} {addr : Nat} {v : Word} {bytes : List Byte}
    (h : hostWrite s w addr v bytes = .next t) :
    units t = units s ∨ ∃ s' u, units s' = units s ∧ Completes s' u ∧ units t = units u := by
  obtain hs | ⟨r, hs⟩ | ⟨a, hs⟩ | ⟨-, hs⟩ | ⟨-, hs⟩ := hostWrite_cases s w addr v bytes <;>
    rw [hs] at h
  · cases h
    exact .inl rfl
  · cases h
    rw [storeRegister_eq]
    exact .inl rfl
  · cases h
    rw [hostWriteBytes_eq]
    exact .inl rfl
  · obtain ht | ⟨u, hu, ht⟩ := units_of_issueIngest h
    · exact .inl ht
    · exact .inr ⟨{ s with ing := { s.ing with cmd := v } }, u, rfl, hu, ht⟩
  · obtain ht | ⟨u, hu, ht⟩ := units_of_issueConsumer h
    · exact .inl ht
    · exact .inr ⟨{ s with con := { s.con with cmd := v } }, u, rfl, hu, ht⟩

@[simp] theorem units_takeMove (s : State) : units (takeMove s) = units s := by
  rw [takeMove_eq]
  rfl

/-- A step leaves the units alone, resets the block, takes an arrival, or completes one command. -/
theorem step_units {s t : State} (h : step s = .next t) :
    units t = units s ∨
    (nextMove s = .hardReset ∧ t = (takeMove s).hardReset) ∨
    (∃ l bytes time, t = arrival (takeMove s) l bytes time) ∨
    ∃ s' u, units s' = units s ∧ Completes s' u ∧ units t = units u := by
  obtain ⟨-, hs⟩ | ⟨-, -, hs⟩ | ⟨-, -, -, hs⟩ | ⟨-, -, -, hs⟩ := step_cases s <;> rw [hs] at h
  case inl => cases h
  case inr.inl =>
    obtain ht | ⟨u, hu, ht⟩ := units_of_issueIngest h
    · exact .inl ht
    · exact .inr (.inr (.inr ⟨s, u, rfl, hu, ht⟩))
  case inr.inr.inl =>
    obtain ht | ⟨u, hu, ht⟩ := units_of_issueConsumer h
    · exact .inl ht
    · exact .inr (.inr (.inr ⟨s, u, rfl, hu, ht⟩))
  case inr.inr.inr =>
    obtain ⟨d, hm⟩ | ⟨l, bytes, time, -, hm⟩ | ⟨hr, hm⟩ | ⟨w, addr, v, bytes, hm⟩ :=
      perform_cases (takeMove s) (nextMove s) <;> rw [hm] at h
    · cases h
      exact .inl (units_takeMove s)
    · cases h
      exact .inr (.inr (.inl ⟨l, bytes, time, rfl⟩))
    · cases h
      exact .inr (.inl ⟨hr, rfl⟩)
    · obtain ht | ⟨s', u, hs', hu, ht⟩ := units_of_hostWrite h
      · exact .inl (by simpa using ht)
      · exact .inr (.inr (.inr ⟨s', u, by simpa using hs', hu, ht⟩))

/-- A property of the units that hardware reset, every arrival and every command that completes keep
is kept by every step. -/
theorem step_keeps {P : State → Prop} (hunits : ∀ {s t}, units t = units s → P s → P t)
    (hreset : ∀ {s}, P s → P s.hardReset)
    (harrive : ∀ {s} l bytes time, P s → P (arrival s l bytes time))
    (hcommand : ∀ {i s u code flags}, P s → commandBody i s = .done u code flags → P u)
    {s t : State} (h : step s = .next t) (hs : P s) : P t := by
  obtain ht | ⟨-, rfl⟩ | ⟨l, bytes, time, rfl⟩ | ⟨s', u, hs', ⟨i, code, flags, hb⟩, ht⟩ :=
    step_units h
  · exact hunits ht hs
  · exact hreset (hunits (units_takeMove s) hs)
  · exact harrive l bytes time (hunits (units_takeMove s) hs)
  · exact hunits ht (hcommand (hunits hs' hs) hb)

/-! ## The configuration -/

theorem config_of_units {s t : State} (h : units t = units s) : t.config = s.config :=
  (congrArg State.config h :)

theorem config_of_commandBody {i : Instr} {s u : State} {code : Status} {flags : CmdFlags}
    (h : commandBody i s = .done u code flags) : u.config = s.config := by
  simpa using congrArg State.config ((commandBody_keeps i s).done h)

theorem arrival_config (s : State) (l : Leg) (bytes : List Byte) (time : Time) :
    (arrival s l bytes time).config = s.config := by
  rw [arrival_eq]

/-- Settles O20: no unit's operation writes the configuration, and hardware reset keeps it. -/
theorem configNeverChanges : Obligations.ConfigNeverChanges := by
  intro s t h
  refine step_keeps (P := fun x => x.config = s.config) ?_ ?_ ?_ ?_ h rfl
  · exact fun hu hs => (config_of_units hu).trans hs
  · exact fun hs => hs
  · exact fun l bytes time hs => (arrival_config ..).trans hs
  · exact fun hs hb => (config_of_commandBody hb).trans hs

/-! ## The counters (R52) -/

/-- `d` is `c` with each counter as it was or one higher, modulo 2^32. -/
def CountedFrom (c d : Counters) : Prop :=
  ∀ f ∈ [Counters.malformed, Counters.ptDrop, Counters.seqLoss, Counters.frames, Counters.psGap,
      Counters.psRepaired, Counters.psUnrecov, Counters.psSwap, Counters.psDup,
      Counters.psOverrun, Counters.psEvqDrop, Counters.psRxMalformed],
    f d = f c ∨ f d = f c + 1

theorem CountedFrom.refl (c : Counters) : CountedFrom c c := fun _ _ => .inl rfl

/-- The packet's sequence check counts a loss at most, and the end of a frame the frame at most. -/
theorem countedFrom_faadd {c d : Counters}
    (h : ∃ x y, (x = c.seqLoss ∨ x = c.seqLoss + 1) ∧ (y = c.frames ∨ y = c.frames + 1) ∧
      d = { c with seqLoss := x, frames := y }) : CountedFrom c d := by
  obtain ⟨x, y, hx, hy, rfl⟩ := h
  simpa [CountedFrom] using ⟨hx, hy⟩

theorem packetTaken_cnt (s : State) (q : Seq) :
    ∃ x, (x = s.cnt.seqLoss ∨ x = s.cnt.seqLoss + 1) ∧
      (packetTaken s q).cnt = { s.cnt with seqLoss := x } := by
  have hstart : (startNextFrame s).cnt = s.cnt := by
    unfold startNextFrame
    split <;> rfl
  unfold packetTaken
  cases h : sequenceLost (startNextFrame s) q with
  | false => exact ⟨_, .inl rfl, by rw [sequenceCheck_of_ok h]; exact hstart⟩
  | true => exact ⟨_, .inr rfl, by rw [sequenceCheck_of_lost h]; simp [hstart]⟩

theorem cnt_of_appendPayload {s u : State} {k : Nat} {h : PacketHead} {flags flags' : CmdFlags}
    {code : Status} (hd : appendPayload s k h flags = .done u code flags') :
    u.cnt = s.cnt ∨ u.cnt = { s.cnt with frames := s.cnt.frames + 1 } := by
  obtain rfl | ⟨-, rfl | he⟩ := appendPayload_eq_done hd
  · exact .inl rfl
  · exact .inl rfl
  · obtain rfl | ⟨index, p, -, -, -, rfl⟩ := endOfFrame_eq_done he
    · exact .inl rfl
    · exact .inr rfl

theorem countedFrom_collectPacket {s u : State} {k : Nat} {h : PacketHead} {code : Status}
    {flags : CmdFlags} (hd : collectPacket s k h = .done u code flags) :
    CountedFrom s.cnt u.cnt := by
  obtain ⟨x, hx, htaken⟩ := packetTaken_cnt s h.rtp.seq
  have hno : CountedFrom s.cnt (packetTaken s h.rtp.seq).cnt :=
    countedFrom_faadd ⟨x, s.cnt.frames, hx, .inl rfl, htaken⟩
  obtain ⟨-, rfl | rfl⟩ | ⟨stage, rfl⟩ | ⟨-, s1, _, hb, happ⟩ := collectPacket_eq_done hd
  · exact hno
  · exact hno
  · exact hno
  · have hbind : s1.cnt = (packetTaken s h.rtp.seq).cnt := by
      obtain ⟨-, rfl⟩ | ⟨-, -, _, _, -, rfl⟩ := bindProfile_eq_ok hb <;> rfl
    obtain hu | hu := cnt_of_appendPayload happ
    · exact hu ▸ hbind ▸ hno
    · refine countedFrom_faadd ⟨x, s.cnt.frames + 1, hx, .inr rfl, ?_⟩
      rw [hu, hbind, htaken]

theorem countedFrom_faaddBody {s u : State} {code : Status} {flags : CmdFlags}
    (hd : faaddBody s = .done u code flags) : CountedFrom s.cnt u.cnt := by
  obtain rfl | ⟨n, hskip⟩ | ⟨t, k, head, ha, hc⟩ := faaddBody_eq_done hd
  · exact .refl _
  · obtain ⟨kind, range, ⟨rfl, -⟩ | ⟨rfl, -⟩⟩ := transportCheck_eq_skip hskip <;>
      simp [CountedFrom]
  · have ht : t.cnt = s.cnt := by
      obtain ⟨c, -, -, rfl⟩ | ⟨-, -, rfl⟩ := acquireSlot_eq_some ha <;> rfl
    exact ht ▸ countedFrom_collectPacket hc

theorem liveness_cnt (s : State) (l : Leg) (t : Time) :
    ∃ x, (x = s.cnt.psSwap ∨ x = s.cnt.psSwap + 1) ∧
      (liveness s l t).1.cnt = { s.cnt with psSwap := x } := by
  obtain ⟨-, h⟩ | ⟨-, h⟩ := liveness_eq s l t <;> rw [h]
  · exact ⟨_, .inl rfl, rfl⟩
  · exact ⟨_, .inr rfl, rfl⟩

/-- A popped event counts an overrun, a duplicate or a gap, or nothing (R415, R416). -/
theorem cnt_of_handleEvent {s u : State} {ev : ArrivalEvent} {flags flags' : CmdFlags}
    {code : Status} (h : handleEvent s ev flags = .done u code flags') :
    u.cnt = s.cnt ∨ u.cnt = { s.cnt with psOverrun := s.cnt.psOverrun + 1 } ∨
      u.cnt = { s.cnt with psDup := s.cnt.psDup + 1 } ∨
      u.cnt = { s.cnt with psGap := s.cnt.psGap + 1 } := by
  obtain rfl | rfl | ⟨-, pkt, -, hc⟩ := handleEvent_eq_done h
  · exact .inl rfl
  · exact .inr (.inl rfl)
  · obtain rfl | rfl | ⟨e, -, rfl⟩ := classify_eq_done hc
    · exact .inl rfl
    · exact .inr (.inr (.inl rfl))
    · exact .inr (.inr (.inr rfl))

theorem countedFrom_psreadBody {s u : State} {code : Status} {flags : CmdFlags}
    (hd : psreadBody s = .done u code flags) : CountedFrom s.cnt u.cnt := by
  obtain ⟨-, hc⟩ | ⟨-, held, -, rfl⟩ | ⟨-, -, ev, rest, _, -, he⟩ := psreadBody_eq_done hd
  · obtain ⟨e, -, ⟨pkt, rfl⟩ | ⟨held, -, rfl⟩⟩ := catchUp_eq_done hc
    · simp [CountedFrom, gapFilled]
    · simp [CountedFrom, gapGivenUp]
  · exact .refl _
  · obtain ⟨x, hx, hl⟩ := liveness_cnt { s with ps := { s.ps with evq := rest } } ev.leg ev.time
    obtain hu | hu | hu | hu := cnt_of_handleEvent he <;> rw [hu, hl] <;>
      simpa [CountedFrom] using hx

theorem countedFrom_commandBody {i : Instr} {s u : State} {code : Status} {flags : CmdFlags}
    (h : commandBody i s = .done u code flags) : CountedFrom s.cnt u.cnt := by
  by_cases hf : i = .faadd
  · subst hf
    exact countedFrom_faaddBody h
  · by_cases hp : i = .psread
    · subst hp
      exact countedFrom_psreadBody h
    · rw [(cnt_ev_of_kept ((commandBody_keeps i s).done h) hf hp).1]
      exact .refl _

theorem countedFrom_arrival (s : State) (l : Leg) (bytes : List Byte) (time : Time) :
    CountedFrom s.cnt (arrival s l bytes time).cnt := by
  unfold arrival
  split
  · exact .refl _
  · split
    · simp [CountedFrom]
    · dsimp only
      split
      · simp [CountedFrom]
      · exact .refl _

theorem cnt_of_units {s t : State} (h : units t = units s) : t.cnt = s.cnt :=
  (congrArg State.cnt h :)

/-- A step counts each event at most once, unless it is hardware reset. -/
theorem countedFrom_step {s t : State} (h : step s = .next t) :
    CountedFrom s.cnt t.cnt ∨ (nextMove s = .hardReset ∧ t = (takeMove s).hardReset) := by
  obtain ht | hreset | ⟨l, bytes, time, rfl⟩ | ⟨s', u, hs', ⟨i, code, flags, hb⟩, ht⟩ :=
    step_units h
  · left
    rw [cnt_of_units ht]
    exact .refl _
  · exact .inr hreset
  · left
    rw [← cnt_of_units (units_takeMove s)]
    exact countedFrom_arrival (takeMove s) l bytes time
  · left
    rw [cnt_of_units ht, ← cnt_of_units hs']
    exact countedFrom_commandBody hb

/-- Settles O21, by what a step can do. -/
theorem countersOnlyCount : Obligations.CountersOnlyCount := fun _ _ h => countedFrom_step h

end Sys2Proof.Machine
end

section
/-! SUPPORT. The invariant of the protection switch: the rings, what keeps the invariant, and that
every step does. -/

namespace Sys2Proof.Machine

open Sys2Proof

/-! ## The rings (R64, R402) -/

theorem ringOk_emptyRing (c : Config) : ringOk c (emptyRing c) := by
  refine ⟨List.length_replicate, fun i pkt h => ?_⟩
  have hnone := List.eq_of_mem_replicate (List.mem_of_getElem? h)
  cases hnone

theorem ringOk_ringStore {c : Config} {ring : List (Option Packet)} {pkt : Packet}
    (h : ringOk c ring) (hp : packetOk c pkt) : ringOk c (ringStore c ring pkt) := by
  obtain ⟨hlen, hring⟩ := h
  refine ⟨by simpa [ringStore] using hlen, fun i x hx => ?_⟩
  rw [ringStore, List.getElem?_set] at hx
  split at hx
  next hi =>
    split at hx
    · cases hx
      exact ⟨hp, hi⟩
    · cases hx
  next => exact hring i x hx

/-! ## What keeps the invariant -/

theorem SwitchInv.ring {s : State} (h : SwitchInv s) (l : Leg) :
    ringOk s.config (legState s.ps l).ring := by
  cases l with
  | leg0 => exact h.ring0
  | leg1 => exact h.ring1

/-- The packet a lookup hits is one an arrival stored, with the sequence number looked up. -/
theorem SwitchInv.lookup_ok {s : State} {l : Leg} {q : Seq} {pkt : Packet} (h : SwitchInv s)
    (hl : lookup s l q = some pkt) : packetOk s.config pkt ∧ pkt.seq = q := by
  obtain ⟨hring, hq⟩ := lookup_eq_some.1 hl
  exact ⟨((h.ring l).2 _ _ hring).1, hq⟩

/-- The invariant reads the configuration and the switch alone. -/
theorem SwitchInv.congr {s t : State} (h : SwitchInv s) (hc : t.config = s.config)
    (hp : t.ps = s.ps) : SwitchInv t where
  ring0 := by rw [hc, hp]; exact h.ring0
  ring1 := by rw [hc, hp]; exact h.ring1
  eventQueue := by rw [hc, hp]; exact h.eventQueue
  heldOk := by rw [hc, hp]; exact h.heldOk
  pendingHeld := by rw [hp]; exact h.pendingHeld

theorem switchInv_units (s : State) : SwitchInv (units s) ↔ SwitchInv s :=
  ⟨fun h => ⟨h.ring0, h.ring1, h.eventQueue, h.heldOk, h.pendingHeld⟩,
    fun h => ⟨h.ring0, h.ring1, h.eventQueue, h.heldOk, h.pendingHeld⟩⟩

/-- With nothing held and no gap pending, only the rings and the event queue matter. -/
theorem switchInv_of_nothingHeld {s : State} (hr : ∀ l, ringOk s.config (legState s.ps l).ring)
    (hq : s.ps.evq.length ≤ s.config.evqDepth) (hh : s.ps.held = none) (hp : s.ps.pending = 0) :
    SwitchInv s where
  ring0 := hr .leg0
  ring1 := hr .leg1
  eventQueue := hq
  heldOk := by simp [hh]
  pendingHeld := by simp [hp]

/-- A switch just initialised (R404, R420, R490). -/
theorem switchInv_of_initial {s : State} (h0 : s.ps.leg0 = LegState.initial s.config)
    (h1 : s.ps.leg1 = LegState.initial s.config) (hq : s.ps.evq = []) (hh : s.ps.held = none)
    (hp : s.ps.pending = 0) : SwitchInv s := by
  refine switchInv_of_nothingHeld (fun l => ?_) (by simp [hq]) hh hp
  cases l with
  | leg0 => rw [legState, h0]; exact ringOk_emptyRing s.config
  | leg1 => rw [legState, h1]; exact ringOk_emptyRing s.config

theorem switchInv_hardReset (s : State) : SwitchInv s.hardReset :=
  switchInv_of_initial rfl rfl rfl rfl rfl

/-! ## Arrivals (R401, R402) -/

theorem switchInv_arrival {s : State} (l : Leg) (bytes : List Byte) (time : Time)
    (h : SwitchInv s) : SwitchInv (arrival s l bytes time) := by
  unfold arrival
  split
  · exact h
  split
  · exact h.congr rfl rfl
  next hlen =>
    dsimp only
    split
    · exact h.congr rfl rfl
    next hfull =>
      have hpkt : packetOk s.config { seq := packetSeq bytes, bytes } :=
        ⟨by dsimp only; omega, by dsimp only; omega, rfl⟩
      have hq : (s.ps.evq ++ [ArrivalEvent.mk l (packetSeq bytes) time]).length ≤
          s.config.evqDepth := by
        rw [List.length_append, List.length_singleton]
        omega
      cases l with
      | leg0 => exact ⟨ringOk_ringStore h.ring0 hpkt, h.ring1, hq, h.heldOk, h.pendingHeld⟩
      | leg1 => exact ⟨h.ring0, ringOk_ringStore h.ring1 hpkt, hq, h.heldOk, h.pendingHeld⟩

/-! ## PSREAD (R409 to R416) -/

/-- Filling one sequence number of a gap brings the held packet one nearer (R411). -/
theorem switchInv_gapFilled {s : State} {e : Seq} (h : SwitchInv s)
    (he : s.ps.expected = some e) (hp : s.ps.pending ≠ 0) (pkt : Packet) :
    SwitchInv (gapFilled s e pkt) where
  ring0 := h.ring0
  ring1 := h.ring1
  eventQueue := h.eventQueue
  heldOk held hheld := by
    obtain ⟨hok, hleg, hseq, e', he', hgap⟩ := h.heldOk held hheld
    obtain rfl : e = e' := by simpa [he] using he'
    refine ⟨hok, hleg, hseq, e + 1, rfl, ?_⟩
    show held.packet.seq = e + 1 + (s.ps.pending - 1)
    rw [hgap]
    bv_omega
  pendingHeld _ := h.pendingHeld hp

/-- Giving the gap up makes the held packet the expected one (R411). -/
theorem switchInv_gapGivenUp {s : State} {e : Seq} {held : HeldPacket} (h : SwitchInv s)
    (hheld : s.ps.held = some held) : SwitchInv (gapGivenUp s e held) where
  ring0 := h.ring0
  ring1 := h.ring1
  eventQueue := h.eventQueue
  heldOk x hx := by
    obtain rfl : held = x := by simpa [hheld] using hheld.symm.trans hx
    obtain ⟨hok, hleg, hseq, -⟩ := h.heldOk held hheld
    exact ⟨hok, hleg, hseq, held.packet.seq, rfl, by simp [gapGivenUp]⟩
  pendingHeld hp := absurd rfl hp

/-- A packet held over a gap is the Master's, and the gap is what is pending (R416). -/
theorem switchInv_holdGap {s : State} {e q : Seq} {pkt : Packet} (h : SwitchInv s)
    (he : s.ps.expected = some e) (hl : lookup s s.ps.master q = some pkt) :
    SwitchInv (holdGap s s.ps.master e q pkt) where
  ring0 := h.ring0
  ring1 := h.ring1
  eventQueue := h.eventQueue
  heldOk x hx := by
    obtain rfl : ⟨⟨q, pkt.bytes⟩, s.ps.master⟩ = x := by simpa using hx
    obtain ⟨⟨hmin, hmax, hseq⟩, rfl⟩ := h.lookup_ok hl
    refine ⟨⟨hmin, hmax, hseq⟩, rfl, rfl, e, he, ?_⟩
    show pkt.seq = e + (pkt.seq - e)
    bv_omega
  pendingHeld _ := rfl

/-- Liveness leaves the rings, the event queue and the packet delivery as they were (R414). -/
theorem liveness_ps (s : State) (l : Leg) (t : Time) :
    (∀ m, (legState (liveness s l t).1.ps m).ring = (legState s.ps m).ring) ∧
      (liveness s l t).1.ps.evq = s.ps.evq ∧ (liveness s l t).1.ps.held = s.ps.held ∧
      (liveness s l t).1.ps.pending = s.ps.pending := by
  obtain ⟨-, h⟩ | ⟨-, h⟩ := liveness_eq s l t <;> rw [h] <;> cases l <;>
    exact ⟨fun m => by cases m <;> rfl, rfl, rfl, rfl⟩

theorem switchInv_of_handleEvent {s u : State} {ev : ArrivalEvent} {flags flags' : CmdFlags}
    {code : Status} (h : SwitchInv s) (hh : s.ps.held = none) (hp : s.ps.pending = 0)
    (hd : handleEvent s ev flags = .done u code flags') : SwitchInv u := by
  obtain rfl | rfl | ⟨hm, pkt, hl, hc⟩ := handleEvent_eq_done hd
  · exact h
  · exact h.congr rfl rfl
  · obtain rfl | rfl | ⟨e, he, rfl⟩ := classify_eq_done hc
    · exact switchInv_of_nothingHeld h.ring h.eventQueue hh hp
    · exact h.congr rfl rfl
    · rw [hm] at hl ⊢
      exact switchInv_holdGap h he hl

theorem switchInv_of_psreadBody {s u : State} {code : Status} {flags : CmdFlags}
    (h : SwitchInv s) (hd : psreadBody s = .done u code flags) : SwitchInv u := by
  obtain ⟨hp, hc⟩ | ⟨hp, held, -, rfl⟩ | ⟨hp, hh, ev, rest, _, hq, he⟩ := psreadBody_eq_done hd
  · obtain ⟨e, he, ⟨pkt, rfl⟩ | ⟨held, hheld, rfl⟩⟩ := catchUp_eq_done hc
    · exact switchInv_gapFilled h he hp pkt
    · exact switchInv_gapGivenUp h hheld
  · exact switchInv_of_nothingHeld h.ring h.eventQueue rfl hp
  · obtain ⟨hring, hevq, hheld, hpending⟩ :=
      liveness_ps { s with ps := { s.ps with evq := rest } } ev.leg ev.time
    have hc : (liveness { s with ps := { s.ps with evq := rest } } ev.leg ev.time).1.config =
        s.config := by
      simpa using congrArg State.config
        (kept_liveness { s with ps := { s.ps with evq := rest } } ev.leg ev.time)
    have hlen := h.eventQueue
    rw [hq, List.length_cons] at hlen
    refine switchInv_of_handleEvent (switchInv_of_nothingHeld (fun l => ?_) ?_ ?_ ?_) ?_ ?_ he
    · rw [hring l, hc]
      exact h.ring l
    · rw [hevq, hc]
      exact Nat.le_of_succ_le hlen
    · exact hheld.trans hh
    · exact hpending.trans hp
    · exact hheld.trans hh
    · exact hpending.trans hp

theorem switchInv_of_commandBody {i : Instr} {s u : State} {code : Status} {flags : CmdFlags}
    (h : SwitchInv s) (hd : commandBody i s = .done u code flags) : SwitchInv u := by
  by_cases hr : i = .psread
  · subst hr
    exact switchInv_of_psreadBody h hd
  · by_cases hi : i = .psinit
    · subst hi
      cases hd
      exact switchInv_of_initial rfl rfl rfl rfl rfl
    · exact h.congr (config_of_commandBody hd) (ps_of_kept ((commandBody_keeps i s).done hd) hr hi)

/-- Settles O15: the switch is written by arrivals, PSREAD, PSINIT and hardware reset alone, and
each keeps its invariant. -/
theorem switchInvariantKept : Obligations.SwitchInvariantKept := by
  intro s t h ht
  refine step_keeps (P := SwitchInv) ?_ ?_ switchInv_arrival switchInv_of_commandBody ht h
  · exact fun hu hs => (switchInv_units _).1 (hu ▸ (switchInv_units _).2 hs)
  · exact fun _ => switchInv_hardReset _

end Sys2Proof.Machine
end

section
/-! SUPPORT. The invariant of the assembler, the frame slots and the ready queue, part by part: what
each operation does to the assembler, to the slots and to the queue, and that every step keeps the
whole. -/

namespace Sys2Proof.Machine

open Sys2Proof

/-! ## The three parts of the invariant -/

/-- The assembler's part: its fields fit its state (R315, R317 to R319, R331). -/
structure AssemblerOk (c : Config) (a : Assembler) : Prop where
  boundProfile : ∀ k, a.profile = some k → k.toNat < c.profileTable.length
  unboundEmpty : a.profile = none → a.pktcnt = 0
  accFits : a.acc.toNat ≤ c.frameBufBytes
  completeNoSlot : a.state = .complete → a.cur = none
  waitingEmpty : a.state = .waitingSync → a.acc = 0 ∧ a.pktcnt = 0

/-- The slots' part, for the slot the assembler owns (R41, R60, R320). -/
structure SlotsOk (c : Config) (cur : Option (BitVec 8)) (slots : List Slot) : Prop where
  slotCount : slots.length = c.nslots
  curFilling : ∀ b, cur = some b → ∃ t, slots[b.toNat]? = some t ∧ t.state = .filling
  fillingCur : ∀ (k : Nat) (t : Slot), slots[k]? = some t → t.state = .filling →
    cur = some (BitVec.ofNat 8 k)
  readySlots : ∀ (k : Nat) (t : Slot), slots[k]? = some t → t.state = .ready → readySlotOk c t

/-- How many tokens of a queue are of a slot. -/
def tokensOf (k : Nat) (ready : List Word) : Nat :=
  (ready.filter fun t => decide (tokenSlot t = k)).length

/-- The ready queue's part (R320, R370, R380). -/
structure QueueOk (s : State) : Prop where
  tokensValid : ∀ t ∈ s.ready, validToken s t = true
  tokensPerSlot : ∀ k : Nat, tokensOf k s.ready ≤ 6

theorem frameInv_iff {s : State} :
    FrameInv s ↔ s.config.wf = true ∧ AssemblerOk s.config s.fa ∧
      SlotsOk s.config s.fa.cur s.slots ∧ QueueOk s :=
  ⟨fun h => ⟨h.config,
      ⟨h.boundProfile, h.unboundEmpty, h.accFits, h.completeNoSlot, h.waitingEmpty⟩,
      ⟨h.slotCount, h.curFilling, h.fillingCur, h.readySlots⟩, ⟨h.tokensValid, h.tokensPerSlot⟩⟩,
    fun ⟨hw, ha, hs, hq⟩ => ⟨hw, hs.slotCount, hs.curFilling, hs.fillingCur, hs.readySlots,
      hq.tokensValid, hq.tokensPerSlot, ha.boundProfile, ha.unboundEmpty, ha.accFits,
      ha.completeNoSlot, ha.waitingEmpty⟩⟩

/-- A configuration's ranges that the invariant rests on (R6, 00_scope.md §4). -/
theorem ranges_of_wf {c : Config} (h : c.wf = true) :
    1 ≤ c.nslots ∧ c.nslots ≤ 16 ∧ c.frameBufBytes ≤ 2 ^ 24 ∧ c.profileTable.length ≤ 255 := by
  simp only [Config.wf, Config.rangesOk, Config.tableOk, Bool.and_eq_true, decide_eq_true_eq] at h
  omega

/-! ## Tokens (R150, R380) -/

/-- A token's bits, field by field: SLOT, KIND, PART, the four reserved bits, GEN. -/
theorem extract_mkToken (k : Nat) (kind part : BitVec 2) (gen : BitVec 16) :
    (mkToken k kind part gen).extractLsb' 0 8 = BitVec.ofNat 8 k ∧
      (mkToken k kind part gen).extractLsb' 8 2 = kind ∧
      (mkToken k kind part gen).extractLsb' 10 2 = part ∧
      (mkToken k kind part gen).extractLsb' 12 4 = 0 ∧
      (mkToken k kind part gen).extractLsb' 16 16 = gen := by
  unfold mkToken
  refine ⟨?slot, ?kind, ?part, ?reserved, ?gen⟩
  case slot => rw [BitVec.extractLsb'_append_eq_of_add_le (by decide), BitVec.extractLsb'_eq_self]
  case kind =>
    rw [BitVec.extractLsb'_append_eq_of_le (by decide),
      BitVec.extractLsb'_append_eq_of_add_le (by decide), BitVec.extractLsb'_eq_self]
  case part =>
    iterate 2 rw [BitVec.extractLsb'_append_eq_of_le (by decide)]
    rw [BitVec.extractLsb'_append_eq_of_add_le (by decide), BitVec.extractLsb'_eq_self]
  case reserved =>
    iterate 3 rw [BitVec.extractLsb'_append_eq_of_le (by decide)]
    rw [BitVec.extractLsb'_append_eq_of_add_le (by decide), BitVec.extractLsb'_eq_self]
  case gen =>
    iterate 4 rw [BitVec.extractLsb'_append_eq_of_le (by decide)]
    rw [BitVec.extractLsb'_eq_self]

theorem tokenSlot_mkToken {k : Nat} (hk : k < 256) (kind part : BitVec 2) (gen : BitVec 16) :
    tokenSlot (mkToken k kind part gen) = k := by
  rw [tokenSlot, (extract_mkToken k kind part gen).1, BitVec.toNat_ofNat, Nat.mod_eq_of_lt hk]

/-- The token of a part a published frame has is valid in its slot (R320, R380). -/
theorem validToken_mkToken {s : State} {k : Nat} {x : Slot} {kind part : BitVec 2}
    {gen : BitVec 16} (hk : k < 256) (hn : k < s.config.nslots) (hx : s.slots[k]? = some x)
    (hr : x.state = .ready) (hg : x.gen = gen) (hkind : kind ≠ 3) (hpart : part ≠ 3)
    (hdual : part = partFull ↔ x.dual = false) :
    validToken s (mkToken k kind part gen) = true := by
  obtain ⟨-, hk', hp', hres, hg'⟩ := extract_mkToken k kind part gen
  refine validToken_iff.2 ⟨x, ?_, ?_, hres, hr, hg'.trans hg.symm, ?_, ?_, ?_⟩
  · rwa [tokenSlot_mkToken hk]
  · rwa [tokenSlot_mkToken hk]
  · rwa [tokenKind, hk']
  · rwa [tokenPart, hp']
  · rwa [tokenPart, hp']

/-- Each token of a frame is of its slot and generation, of a kind and a part there are (R320). -/
theorem mem_frameTokens {k : Nat} {dual : Bool} {gen : BitVec 16} {t : Word}
    (h : t ∈ frameTokens k dual gen) :
    ∃ kind part, t = mkToken k kind part gen ∧ kind ≠ 3 ∧ part ≠ 3 ∧
      (part = partFull ↔ dual = false) := by
  cases dual with
  | false =>
    simp only [frameTokens, partTokens, Bool.false_eq_true, if_false, List.mem_cons,
      List.not_mem_nil, or_false] at h
    obtain rfl | rfl | rfl := h <;> exact ⟨_, _, rfl, by decide, by decide, by decide⟩
  | true =>
    simp only [frameTokens, partTokens, if_true, List.mem_append, List.mem_cons,
      List.not_mem_nil, or_false] at h
    obtain (rfl | rfl | rfl) | (rfl | rfl | rfl) := h <;>
      exact ⟨_, _, rfl, by decide, by decide, by decide⟩

theorem length_frameTokens_le (k : Nat) (dual : Bool) (gen : BitVec 16) :
    (frameTokens k dual gen).length ≤ 6 := by
  cases dual <;> simp [frameTokens, partTokens]

/-! ## The assembler's operations -/

/-- An assembler that has collected nothing and is not Complete. -/
theorem assemblerOk_of_empty {c : Config} {a : Assembler} (hacc : a.acc = 0) (hcnt : a.pktcnt = 0)
    (hst : a.state ≠ .complete)
    (hp : ∀ k, a.profile = some k → k.toNat < c.profileTable.length) : AssemblerOk c a where
  boundProfile := hp
  unboundEmpty _ := hcnt
  accFits := by simp [hacc]
  completeNoSlot h := absurd h hst
  waitingEmpty _ := ⟨hacc, hcnt⟩

/-- The record the resolver finds is in the table (R251). -/
theorem resolveFromHbrmt_index {c : Config} {map : BitVec 4} {frm frate : BitVec 8}
    {sample : BitVec 4} {k : Nat} {p : Profile}
    (h : resolveFromHbrmt c map frm frate sample = .ok (k, p)) : k < c.profileTable.length := by
  unfold resolveFromHbrmt at h
  split at h
  · cases h
  split at h
  · cases h
  split at h
  · cases h
  split at h
  · cases h
  next found hfound =>
    cases h
    obtain ⟨-, hget, -⟩ := findProfile_eq_some hfound
    exact (List.getElem?_eq_some_iff.1 hget).1

/-- An operation on the assembler alone, which keeps its slot. -/
theorem FrameInv.withAssembler {s t : State} (h : FrameInv s) (hc : t.config = s.config)
    (hs : t.slots = s.slots) (hr : t.ready = s.ready) (hcur : t.fa.cur = s.fa.cur)
    (ha : AssemblerOk s.config t.fa) : FrameInv t := by
  obtain ⟨hw, -, hslots, hq⟩ := frameInv_iff.1 h
  refine frameInv_iff.2 ⟨hc ▸ hw, hc ▸ ha, by rwa [hc, hs, hcur], fun w hwr => ?_, ?_⟩
  · rw [validToken, hs, hc]
    exact hq.tokensValid w (hr ▸ hwr)
  · exact hr ▸ hq.tokensPerSlot

/-- An operation that empties the assembler: AbortFrame, a loss, FARESET, a new frame. -/
theorem FrameInv.withEmpty {s t : State} (h : FrameInv s) (hc : t.config = s.config)
    (hs : t.slots = s.slots) (hr : t.ready = s.ready) (hcur : t.fa.cur = s.fa.cur)
    (hacc : t.fa.acc = 0) (hcnt : t.fa.pktcnt = 0) (hst : t.fa.state ≠ .complete)
    (hp : t.fa.profile = s.fa.profile ∨ t.fa.profile = none) : FrameInv t := by
  refine h.withAssembler hc hs hr hcur (assemblerOk_of_empty hacc hcnt hst fun k hk => ?_)
  obtain hp | hp := hp
  · exact h.boundProfile k (hp ▸ hk)
  · simp [hp] at hk

/-- An operation on none of the three parts. -/
theorem FrameInv.congr {s t : State} (h : FrameInv s) (hc : t.config = s.config)
    (hs : t.slots = s.slots) (hr : t.ready = s.ready) (hfa : t.fa = s.fa) : FrameInv t :=
  h.withAssembler hc hs hr (by rw [hfa]) (hfa ▸ (frameInv_iff.1 h).2.1)

theorem frameInv_units (s : State) : FrameInv (units s) ↔ FrameInv s :=
  ⟨fun h => h.congr rfl rfl rfl rfl, fun h => h.congr rfl rfl rfl rfl⟩

/-! ## The slots' operations -/

theorem modifySlot_getElem? (slots : List Slot) (k j : Nat) (f : Slot → Slot) :
    (modifySlot slots k f)[j]? = if j = k then slots[k]?.map f else slots[j]? := by
  rw [modifySlot, List.getElem?_modify]
  by_cases h : j = k
  · simp [h]
  · simp [h, Ne.symm h]

/-- A change of slot `k`, and of the slot the assembler owns with it. -/
theorem SlotsOk.modify {c : Config} {cur cur' : Option (BitVec 8)} {slots : List Slot} {k : Nat}
    {f : Slot → Slot} (h : SlotsOk c cur slots)
    (hready : ∀ x, slots[k]? = some x → (f x).state = .ready → readySlotOk c (f x))
    (hcur : ∀ b, cur' = some b → ∃ t, (modifySlot slots k f)[b.toNat]? = some t ∧
      t.state = .filling)
    (hself : ∀ x, slots[k]? = some x → (f x).state = .filling → cur' = some (BitVec.ofNat 8 k))
    (hother : ∀ j x, j ≠ k → slots[j]? = some x → x.state = .filling →
      cur' = some (BitVec.ofNat 8 j)) : SlotsOk c cur' (modifySlot slots k f) where
  slotCount := by rw [modifySlot, List.length_modify]; exact h.slotCount
  curFilling := hcur
  fillingCur j t hj ht := by
    rw [modifySlot_getElem?] at hj
    split at hj
    next hjk =>
      obtain ⟨x, hx, rfl⟩ := Option.map_eq_some_iff.1 hj
      exact hjk ▸ hself x hx ht
    next hjk => exact hother j t hjk hj ht
  readySlots j t hj ht := by
    rw [modifySlot_getElem?] at hj
    split at hj
    · obtain ⟨x, hx, rfl⟩ := Option.map_eq_some_iff.1 hj
      exact hready x hx ht
    · exact h.readySlots j t hj ht

/-- A FREE slot acquired by an assembler that owns none (R313). -/
theorem SlotsOk.acquire {c : Config} {slots : List Slot} {k : Nat} (h : SlotsOk c none slots)
    (hk : k < 256) (hlt : k < slots.length) :
    SlotsOk c (some (BitVec.ofNat 8 k))
      (modifySlot slots k fun t => { t with state := .filling }) := by
  refine h.modify (fun x _ hx => by simp at hx) (fun b hb => ?_) (fun _ _ _ => rfl)
    (fun j x _ hj hx => ?_)
  · obtain rfl : BitVec.ofNat 8 k = b := by simpa using hb
    refine ⟨{ slots[k] with state := .filling }, ?_, rfl⟩
    rw [BitVec.toNat_ofNat, Nat.mod_eq_of_lt hk, modifySlot_getElem?, if_pos rfl,
      List.getElem?_eq_getElem hlt, Option.map_some]
  · exact absurd (h.fillingCur j x hj hx) (by simp)

/-- The assembler's slot made READY with a frame, and given up (R320). -/
theorem SlotsOk.publish {c : Config} {b : BitVec 8} {slots : List Slot} {f : Slot → Slot}
    (h : SlotsOk c (some b) slots) (hn : slots.length ≤ 256)
    (hf : ∀ x, (f x).state = .ready ∧ readySlotOk c (f x)) :
    SlotsOk c none (modifySlot slots b.toNat f) := by
  refine h.modify (fun x _ _ => (hf x).2) nofun (fun x _ hx => ?_) (fun j x hj hx hfill => ?_)
  · simp [(hf x).1] at hx
  · have hb : b = BitVec.ofNat 8 j := by simpa using h.fillingCur j x hx hfill
    have hlt := (List.getElem?_eq_some_iff.1 hx).1
    exact absurd (by rw [hb, BitVec.toNat_ofNat, Nat.mod_eq_of_lt (by omega)]) hj

/-- A slot that stays the assembler's or not, as it was (R382, R386). -/
theorem SlotsOk.modify_of_filling_iff {c : Config} {cur : Option (BitVec 8)} {slots : List Slot}
    {k : Nat} {f : Slot → Slot} (h : SlotsOk c cur slots)
    (hfill : ∀ x, slots[k]? = some x → ((f x).state = .filling ↔ x.state = .filling))
    (hready : ∀ x, slots[k]? = some x → (f x).state = .ready → readySlotOk c (f x)) :
    SlotsOk c cur (modifySlot slots k f) := by
  refine h.modify hready (fun b hb => ?_)
    (fun x hx hf => h.fillingCur k x hx ((hfill x hx).1 hf)) (fun j x _ => h.fillingCur j x)
  obtain ⟨t, ht, hft⟩ := h.curFilling b hb
  rw [modifySlot_getElem?]
  split
  next hbk =>
    rw [hbk] at ht
    exact ⟨f t, by rw [ht, Option.map_some], (hfill t ht).2 hft⟩
  next => exact ⟨t, ht, hft⟩

/-! ## The queue's operations -/

/-- A token stays valid over a change of slot `k` that, if the token is of slot `k` and the slot
READY, keeps what the token is checked against (R380). -/
theorem validToken_modifySlot {s t : State} {k : Nat} {f : Slot → Slot} {w : Word}
    (h : validToken s w = true) (hc : t.config = s.config)
    (hs : t.slots = modifySlot s.slots k f)
    (hf : ∀ x, s.slots[k]? = some x → x.state = .ready → tokenSlot w = k →
      (f x).state = .ready ∧ (f x).gen = x.gen ∧ (f x).dual = x.dual) :
    validToken t w = true := by
  obtain ⟨x, hx, hn, hres, hr, hg, hkind, hpart, hdual⟩ := validToken_iff.1 h
  by_cases hk : tokenSlot w = k
  · obtain ⟨hr', hg', hd'⟩ := hf x (hk ▸ hx) hr hk
    refine validToken_iff.2 ⟨f x, ?_, hc ▸ hn, hres, hr', hg'.symm ▸ hg, hkind, hpart,
      hd'.symm ▸ hdual⟩
    rw [hs, modifySlot_getElem?, if_pos hk, ← hk, hx, Option.map_some]
  · refine validToken_iff.2 ⟨x, ?_, hc ▸ hn, hres, hr, hg, hkind, hpart, hdual⟩
    rw [hs, modifySlot_getElem?, if_neg hk, hx]

/-- A queue with tokens taken away, over a change of slot `k` that keeps those left valid. -/
theorem QueueOk.modifySlot {s t : State} {k : Nat} {f : Slot → Slot} (h : QueueOk s)
    (hc : t.config = s.config) (hs : t.slots = modifySlot s.slots k f)
    (hr : t.ready.Sublist s.ready)
    (hf : ∀ w ∈ t.ready, ∀ x, s.slots[k]? = some x → x.state = .ready → tokenSlot w = k →
      (f x).state = .ready ∧ (f x).gen = x.gen ∧ (f x).dual = x.dual) : QueueOk t where
  tokensValid w hw := validToken_modifySlot (h.tokensValid w (hr.subset hw)) hc hs (hf w hw)
  tokensPerSlot j := (hr.filter _).length_le.trans (h.tokensPerSlot j)

/-- No token of a slot that is not READY is queued. -/
theorem QueueOk.tokensOf_eq_zero {s : State} {k : Nat} {x : Slot} (h : QueueOk s)
    (hx : s.slots[k]? = some x) (hr : x.state ≠ .ready) : tokensOf k s.ready = 0 := by
  rw [tokensOf, List.length_eq_zero_iff, List.filter_eq_nil_iff]
  intro w hw hk
  obtain ⟨y, hy, -, -, hready, -⟩ := validToken_iff.1 (h.tokensValid w hw)
  rw [of_decide_eq_true hk, hx] at hy
  obtain rfl := Option.some.inj hy
  exact hr hready

/-! ## FAADD (R311 to R320) -/

/-- What FAADD has from step 3 on: the invariant, slot `k` the assembler's, and not Complete. -/
structure Owning (s : State) (k : Nat) : Prop where
  inv : FrameInv s
  owns : ∃ b, s.fa.cur = some b ∧ b.toNat = k
  notComplete : s.fa.state ≠ .complete

/-- Step 2: slot `k` is the assembler's, and the slots and the queue are in order (R313). In
Complete the assembler's own part is not, until step 3. -/
theorem acquireSlot_owns {s t : State} {k : Nat} (h : FrameInv s)
    (ha : acquireSlot s = some (t, k)) :
    t.config = s.config ∧ t.fa = { s.fa with cur := t.fa.cur } ∧
      (∃ b, t.fa.cur = some b ∧ b.toNat = k) ∧ SlotsOk s.config t.fa.cur t.slots ∧ QueueOk t := by
  obtain ⟨hw, -, hslots, hq⟩ := frameInv_iff.1 h
  obtain ⟨b, hb, rfl, rfl⟩ | ⟨hnone, hfree, rfl⟩ := acquireSlot_eq_some ha
  · exact ⟨rfl, rfl, ⟨b, hb, rfl⟩, hslots, hq⟩
  · obtain ⟨-, ⟨x, hx, hxfree⟩, -⟩ := firstFree_eq_some hfree
    rw [Nat.sub_zero] at hx
    have hlt := (List.getElem?_eq_some_iff.1 hx).1
    have hk : k < 256 := by
      have := (ranges_of_wf hw).2.1
      have := hslots.slotCount
      omega
    refine ⟨rfl, rfl, ⟨_, rfl, by rw [BitVec.toNat_ofNat, Nat.mod_eq_of_lt hk]⟩,
      (hnone ▸ hslots).acquire hk hlt, hq.modifySlot rfl rfl (List.Sublist.refl _) ?_⟩
    intro w _ y hy hready
    rw [hx] at hy
    obtain rfl := Option.some.inj hy
    simp [hxfree] at hready

/-- Steps 2 and 3: a slot is acquired if need be, and a new frame starts after Complete (R314). -/
theorem owning_startNextFrame {s t : State} {k : Nat} (h : FrameInv s)
    (ha : acquireSlot s = some (t, k)) : Owning (startNextFrame t) k := by
  obtain ⟨hw, hfa, -, -⟩ := frameInv_iff.1 h
  obtain ⟨hc, hfat, howns, hslots', hq'⟩ := acquireSlot_owns h ha
  unfold startNextFrame
  split
  next hcomplete =>
    refine ⟨frameInv_iff.2 ⟨hc ▸ hw, ?_, hc ▸ hslots', ⟨hq'.1, hq'.2⟩⟩, howns, nofun⟩
    refine assemblerOk_of_empty rfl rfl nofun fun j hj => ?_
    rw [hc]
    rw [hfat] at hj
    exact hfa.boundProfile j hj
  next hcomplete =>
    refine ⟨frameInv_iff.2 ⟨hc ▸ hw, ?_, hc ▸ hslots', hq'⟩, howns, hcomplete⟩
    rw [hc, hfat]
    rw [hfat] at hcomplete
    exact ⟨hfa.boundProfile, hfa.unboundEmpty, hfa.accFits, fun hc' => absurd hc' hcomplete,
      hfa.waitingEmpty⟩

/-- An operation of FAADD that empties the assembler. -/
theorem Owning.withEmpty {s t : State} {k : Nat} (h : Owning s k) (hc : t.config = s.config)
    (hs : t.slots = s.slots) (hr : t.ready = s.ready) (hcur : t.fa.cur = s.fa.cur)
    (hacc : t.fa.acc = 0) (hcnt : t.fa.pktcnt = 0) (hst : t.fa.state ≠ .complete)
    (hp : t.fa.profile = s.fa.profile) : Owning t k where
  inv := h.inv.withEmpty hc hs hr hcur hacc hcnt hst (.inl hp)
  owns := hcur ▸ h.owns
  notComplete := hst

/-- Step 4: the sequence check (R315). -/
theorem Owning.sequenceCheck {s : State} {k : Nat} (h : Owning s k) (q : Seq) :
    Owning (sequenceCheck s q) k := by
  cases hl : sequenceLost s q with
  | true =>
    rw [sequenceCheck_of_lost hl]
    exact h.withEmpty rfl rfl rfl rfl rfl rfl nofun rfl
  | false =>
    rw [sequenceCheck_of_ok hl]
    obtain ⟨-, hfa, -, -⟩ := frameInv_iff.1 h.inv
    exact ⟨h.inv.withAssembler rfl rfl rfl rfl
      ⟨hfa.boundProfile, hfa.unboundEmpty, hfa.accFits, hfa.completeNoSlot, hfa.waitingEmpty⟩,
      h.owns, h.notComplete⟩

/-- Step 6: the profile is bound (R317). -/
theorem Owning.bindProfile {s t : State} {k : Nat} {hb : HbrmtHeader} (h : Owning s k)
    (ht : bindProfile s hb = .ok t) :
    Owning t k ∧ t.fa.profile ≠ none ∧ t.fa.state = s.fa.state := by
  obtain ⟨hw, hfa, -, -⟩ := frameInv_iff.1 h.inv
  obtain ⟨hbound, rfl⟩ | ⟨-, -, j, p, hres, rfl⟩ := bindProfile_eq_ok ht
  · exact ⟨h, fun hnone => hbound ⟨hfa.unboundEmpty hnone, hnone⟩, rfl⟩
  · have hlt := resolveFromHbrmt_index hres
    have hj : j < 256 := by
      have := (ranges_of_wf hw).2.2.2
      omega
    refine ⟨⟨h.inv.withAssembler rfl rfl rfl rfl
      ⟨fun b hb => ?_, nofun, hfa.accFits, hfa.completeNoSlot, hfa.waitingEmpty⟩,
      h.owns, h.notComplete⟩, nofun, rfl⟩
    obtain rfl : BitVec.ofNat 8 j = b := by simpa using hb
    rwa [BitVec.toNat_ofNat, Nat.mod_eq_of_lt hj]

/-- Step 7: the payload is appended within the frame buffer (R318). -/
theorem Owning.payloadAppended {s : State} {k : Nat} {h : PacketHead} (ho : Owning s k)
    (hbound : s.fa.profile ≠ none) (hst : s.fa.state ≠ .waitingSync)
    (hfits : s.fa.acc.toNat + payloadLen h ≤ s.config.frameBufBytes) :
    Owning (payloadAppended s k h) k := by
  obtain ⟨hw, hfa, -, -⟩ := frameInv_iff.1 ho.inv
  have hbuf := (ranges_of_wf hw).2.2.1
  refine ⟨ho.inv.withAssembler rfl rfl rfl rfl
    ⟨hfa.boundProfile, fun hnone => absurd hnone hbound, ?_, hfa.completeNoSlot,
      fun hwait => absurd hwait hst⟩, ho.owns, ho.notComplete⟩
  show (s.fa.acc + BitVec.ofNat 32 (payloadLen h)).toNat ≤ s.config.frameBufBytes
  rw [BitVec.toNat_add, BitVec.toNat_ofNat]
  omega

/-- The tokens of a frame are at most six of its slot and none of another (R320). -/
theorem tokensOf_append_frameTokens {ready : List Word} {k : Nat} (hk : k < 256) (dual : Bool)
    (gen : BitVec 16) (hsix : ∀ j, tokensOf j ready ≤ 6) (hnone : tokensOf k ready = 0) (j : Nat) :
    tokensOf j (ready ++ frameTokens k dual gen) ≤ 6 := by
  have happ : tokensOf j (ready ++ frameTokens k dual gen) =
      tokensOf j ready + tokensOf j (frameTokens k dual gen) := by
    simp only [tokensOf, List.filter_append, List.length_append]
  rw [happ]
  by_cases hj : j = k
  · rw [hj, hnone, Nat.zero_add]
    exact (List.length_filter_le _ _).trans (length_frameTokens_le k dual gen)
  · have hnew : tokensOf j (frameTokens k dual gen) = 0 := by
      rw [tokensOf, List.length_eq_zero_iff, List.filter_eq_nil_iff]
      intro w hw
      obtain ⟨kind, part, rfl, -⟩ := mem_frameTokens hw
      simp [tokenSlot_mkToken hk, Ne.symm hj]
    rw [hnew, Nat.add_zero]
    exact hsix j

/-- The queue after a frame's tokens are appended: slot `k` was the assembler's, so no token of it
was queued before (R320). -/
theorem queueOk_publish {s : State} {k : Nat} {x : Slot} (h : QueueOk s) (index : BitVec 8)
    (p : Profile) (hx : s.slots[k]? = some x) (hfill : x.state = .filling) (hk : k < 256)
    (hn : k < s.config.nslots) : QueueOk (publish s k index p) := by
  have hgen : nextGen s k = x.gen + 1 := by rw [nextGen, hx]
  refine ⟨fun w hw => ?_, fun j => ?_⟩
  · rw [publish_ready] at hw
    obtain hw | hw := List.mem_append.1 hw
    · refine validToken_modifySlot (h.tokensValid w hw) rfl rfl fun y hy hr _ => ?_
      rw [hx] at hy
      obtain rfl := Option.some.inj hy
      simp [hfill] at hr
    · obtain ⟨kind, part, rfl, hkind, hpart, hdual⟩ := mem_frameTokens hw
      rw [hgen]
      have hget := modifySlot_getElem? s.slots k k fun t =>
        { state := .ready, profile := index, padding := s.fa.padding, dual := p.multiplexed
          demuxed := false, gen := t.gen + 1 }
      rw [if_pos rfl, hx, Option.map_some] at hget
      exact validToken_mkToken hk hn hget rfl rfl hkind hpart hdual
  · rw [publish_ready]
    exact tokensOf_append_frameTokens hk _ _ h.tokensPerSlot
      (h.tokensOf_eq_zero hx (by simp [hfill])) j

/-- Step 8: the frame is published whole (R319, R320). -/
theorem Owning.frameCompleted {s : State} {k : Nat} {index : BitVec 8} {p : Profile}
    (h : Owning s k) (hindex : s.fa.profile = some index)
    (hp : s.config.profileTable[index.toNat]? = some p)
    (hfits : p.transportFrameSizeBytes ≤ s.fa.acc.toNat) :
    FrameInv (frameCompleted s k index p) := by
  obtain ⟨hw, hfa, hslots, hq⟩ := frameInv_iff.1 h.inv
  obtain ⟨b, hb, rfl⟩ := h.owns
  obtain ⟨x, hx, hfill⟩ := hslots.curFilling b hb
  have hlt := (List.getElem?_eq_some_iff.1 hx).1
  have hcount := hslots.slotCount
  have hn := (ranges_of_wf hw).2.1
  refine frameInv_iff.2 ⟨hw, ?assembler, ?slots, ?queue⟩
  case assembler =>
    exact ⟨hfa.boundProfile, fun hnone => (nomatch hindex.symm.trans hnone), hfa.accFits,
      fun _ => rfl, nofun⟩
  case slots =>
    rw [hb] at hslots
    exact hslots.publish (by omega) fun y => ⟨rfl, p, hp, rfl, hfits.trans hfa.accFits⟩
  case queue =>
    have hpub := queueOk_publish
      (s := { s with fa := { s.fa with
        padding := BitVec.ofNat 32 (s.fa.acc.toNat - p.transportFrameSizeBytes)
        frameSize := if s.fa.frameSize = 0 then BitVec.ofNat 32 p.transportFrameSizeBytes
          else s.fa.frameSize } })
      ⟨hq.1, hq.2⟩ index p hx hfill (by omega) (by simpa [← hcount] using hlt)
    exact ⟨hpub.1, hpub.2⟩

theorem frameInv_of_appendPayload {s u : State} {k : Nat} {h : PacketHead}
    {flags flags' : CmdFlags} {code : Status} (ho : Owning s k) (hbound : s.fa.profile ≠ none)
    (hst : s.fa.state ≠ .waitingSync)
    (hd : appendPayload s k h flags = .done u code flags') : FrameInv u := by
  obtain rfl | ⟨hfits, hd⟩ := appendPayload_eq_done hd
  · exact ho.inv.congr rfl rfl rfl rfl
  · have happ := ho.payloadAppended hbound hst hfits
    obtain rfl | he := hd
    · exact happ.inv
    · obtain rfl | ⟨index, p, hindex, hp, hle, rfl⟩ := endOfFrame_eq_done he
      · exact happ.inv.congr rfl rfl rfl rfl
      · exact happ.frameCompleted hindex hp hle

theorem frameInv_of_faaddBody {s u : State} {code : Status} {flags : CmdFlags} (h : FrameInv s)
    (hd : faaddBody s = .done u code flags) : FrameInv u := by
  obtain rfl | ⟨n, hskip⟩ | ⟨t, k, head, ha, hc⟩ := faaddBody_eq_done hd
  · exact h
  · obtain ⟨kind, range, ⟨rfl, -⟩ | ⟨rfl, -⟩⟩ := transportCheck_eq_skip hskip <;>
      exact h.congr rfl rfl rfl rfl
  · have htaken : Owning (packetTaken t head.rtp.seq) k :=
      (owning_startNextFrame h ha).sequenceCheck head.rtp.seq
    obtain ⟨-, rfl | rfl⟩ | ⟨stage, rfl⟩ | ⟨hst, s1, _, hb, happ⟩ := collectPacket_eq_done hc
    · exact htaken.inv
    · exact htaken.inv.withEmpty rfl rfl rfl rfl rfl rfl nofun (.inl rfl)
    · exact htaken.inv.congr rfl rfl rfl rfl
    · obtain ⟨hbind, hbound, hstate⟩ := htaken.bindProfile hb
      exact frameInv_of_appendPayload hbind hbound (hstate ▸ hst) happ

/-! ## The other commands -/

theorem liveness_fa (s : State) (l : Leg) (t : Time) : (liveness s l t).1.fa = s.fa := by
  obtain ⟨-, h⟩ | ⟨-, h⟩ := liveness_eq s l t <;> simp [h]

/-- PSREAD aborts the frame when it gives a gap up, and leaves the assembler alone else (R411). -/
theorem fa_of_psreadBody {s u : State} {code : Status} {flags : CmdFlags}
    (h : psreadBody s = .done u code flags) :
    u.fa = s.fa ∨ u.fa = { s.fa with state := .waitingSync, acc := 0, pktcnt := 0 } := by
  obtain ⟨-, hc⟩ | ⟨-, held, -, rfl⟩ | ⟨-, -, ev, rest, _, -, he⟩ := psreadBody_eq_done h
  · obtain ⟨e, -, ⟨pkt, rfl⟩ | ⟨held, -, rfl⟩⟩ := catchUp_eq_done hc
    · exact .inl rfl
    · exact .inr rfl
  · exact .inl rfl
  · have hlive := liveness_fa { s with ps := { s.ps with evq := rest } } ev.leg ev.time
    refine .inl (Eq.trans ?_ hlive)
    obtain rfl | rfl | ⟨-, pkt, -, hc⟩ := handleEvent_eq_done he
    · rfl
    · rfl
    · obtain rfl | rfl | ⟨e, -, rfl⟩ := classify_eq_done hc <;> rfl

/-- MBRELEASE frees a READY slot and drops its tokens, or does nothing (R386). -/
theorem mbreleaseBody_eq_done {s u : State} {code : Status} {flags : CmdFlags}
    (h : mbreleaseBody s = .done u code flags) :
    u = s ∨
    ∃ x, s.slots[s.con.ca0.toNat]? = some x ∧ x.state = .ready ∧
      u = { s with
            slots := modifySlot s.slots s.con.ca0.toNat fun t => { t with state := .free }
            ready := s.ready.filter fun t => decide (tokenSlot t ≠ s.con.ca0.toNat) } := by
  unfold mbreleaseBody at h
  dsimp only at h
  split at h
  · cases h
    exact .inl rfl
  next x hx =>
    split at h
    next hr =>
      cases h
      exact .inr ⟨x, hx, hr.2, rfl⟩
    · cases h
      exact .inl rfl

theorem frameInv_of_mbreleaseBody {s u : State} {code : Status} {flags : CmdFlags}
    (h : FrameInv s) (hd : mbreleaseBody s = .done u code flags) : FrameInv u := by
  obtain rfl | ⟨x, hx, hr, rfl⟩ := mbreleaseBody_eq_done hd
  · exact h
  · obtain ⟨hw, hfa, hslots, hq⟩ := frameInv_iff.1 h
    refine frameInv_iff.2 ⟨hw, hfa,
      hslots.modify_of_filling_iff (fun y hy => ?_) (fun _ _ => nofun),
      hq.modifySlot rfl rfl List.filter_sublist fun w hmem _ _ _ hk => ?_⟩
    · rw [hx] at hy
      obtain rfl := Option.some.inj hy
      simp [hr]
    · exact absurd hk (of_decide_eq_true (List.mem_filter.1 hmem).2)

theorem frameInv_of_mbextractBody {s u : State} {code : Status} {flags : CmdFlags}
    (h : FrameInv s) (hd : mbextractBody s = .done u code flags) : FrameInv u := by
  obtain ⟨m, d, rfl | rfl⟩ := mbextractBody_eq_done hd
  · exact h.congr rfl rfl rfl rfl
  · obtain ⟨hw, hfa, hslots, hq⟩ := frameInv_iff.1 h
    exact frameInv_iff.2 ⟨hw, hfa,
      hslots.modify_of_filling_iff (fun _ _ => Iff.rfl) (fun y hy => hslots.readySlots _ y hy),
      hq.modifySlot rfl rfl (List.Sublist.refl _) fun _ _ _ _ hr _ => ⟨hr, rfl, rfl⟩⟩

theorem frameInv_of_mbnextBody {s u : State} {code : Status} {flags : CmdFlags}
    (h : FrameInv s) (hd : mbnextBody s = .done u code flags) : FrameInv u := by
  unfold mbnextBody at hd
  split at hd
  · cases hd
  next w rest hready =>
    cases hd
    obtain ⟨hw, hfa, hslots, hq⟩ := frameInv_iff.1 h
    have hsub : rest.Sublist s.ready := hready ▸ List.sublist_cons_self w rest
    exact frameInv_iff.2 ⟨hw, hfa, hslots, fun x hx => hq.tokensValid x (hsub.subset hx),
      fun k => (hsub.filter _).length_le.trans (hq.tokensPerSlot k)⟩

theorem frameInv_of_commandBody {i : Instr} {s u : State} {code : Status} {flags : CmdFlags}
    (h : FrameInv s) (hd : commandBody i s = .done u code flags) : FrameInv u := by
  have hk := (commandBody_keeps i s).done hd
  have hc := config_of_commandBody hd
  cases i with
  | faadd => exact frameInv_of_faaddBody h hd
  | mbnext => exact frameInv_of_mbnextBody h hd
  | mbextract => exact frameInv_of_mbextractBody h hd
  | mbrelease => exact frameInv_of_mbreleaseBody h hd
  | fareset =>
    cases hd
    exact h.withEmpty rfl rfl rfl rfl rfl rfl nofun (.inr rfl)
  | faabort =>
    cases hd
    exact h.withEmpty rfl rfl rfl rfl rfl rfl nofun (.inl rfl)
  | psread =>
    have hs := slots_of_kept hk nofun nofun nofun
    have hr := ready_of_kept hk nofun nofun nofun
    obtain hfa | hfa := fa_of_psreadBody hd
    · exact h.congr hc hs hr hfa
    · exact h.withEmpty hc hs hr (by rw [hfa]) (by rw [hfa]) (by rw [hfa]) (by rw [hfa]; nofun)
        (.inl (by rw [hfa]))
  | _ =>
    exact h.congr hc (slots_of_kept hk nofun nofun nofun) (ready_of_kept hk nofun nofun nofun)
      (fa_of_kept hk nofun nofun nofun nofun)

/-! ## Arrivals, hardware reset and the step -/

theorem frameInv_arrival {s : State} (l : Leg) (bytes : List Byte) (time : Time) (h : FrameInv s) :
    FrameInv (arrival s l bytes time) := by
  rw [arrival_eq]
  exact h.congr rfl rfl rfl rfl

/-- At reset slot 0 is FILLING and every other slot FREE (R60, R490). -/
theorem slotsOk_initialSlots {c : Config} (h : 1 ≤ c.nslots) :
    SlotsOk c (some 0) (initialSlots c) := by
  obtain ⟨n, hn⟩ : ∃ n, c.nslots = n + 1 := ⟨c.nslots - 1, by omega⟩
  have hslots : initialSlots c = Slot.initialFilling :: List.replicate n Slot.initialFree := by
    rw [initialSlots, hn]
  have hfree {k : Nat} {t : Slot} (ht : (initialSlots c)[k + 1]? = some t) :
      t = Slot.initialFree := by
    rw [hslots, List.getElem?_cons_succ] at ht
    exact List.eq_of_mem_replicate (List.mem_of_getElem? ht)
  have hfirst {t : Slot} (ht : (initialSlots c)[0]? = some t) : t = Slot.initialFilling := by
    rw [hslots] at ht
    exact (Option.some.inj ht).symm
  refine ⟨by simp [hslots, hn], fun b hb => ?_, fun k t hk ht => ?_, fun k t hk ht => ?_⟩
  · obtain rfl := Option.some.inj hb
    exact ⟨Slot.initialFilling, by rw [hslots]; rfl, rfl⟩
  · cases k with
    | zero => rfl
    | succ k => rw [hfree hk] at ht; cases ht
  · cases k with
    | zero => rw [hfirst hk] at ht; cases ht
    | succ k => rw [hfree hk] at ht; cases ht

theorem frameInv_resetOf {c : Config} (h : c.wf = true) : FrameInv (State.resetOf c) :=
  frameInv_iff.2 ⟨h, assemblerOk_of_empty rfl rfl nofun nofun,
    slotsOk_initialSlots (ranges_of_wf h).1, nofun, fun _ => Nat.zero_le _⟩

theorem frameInv_hardReset {s : State} (h : FrameInv s) : FrameInv s.hardReset :=
  (frameInv_resetOf h.config).congr rfl rfl rfl rfl

/-- Settles O16: the assembler, the slots and the queue are written by FAADD, FARESET, FAABORT,
PSREAD, MBNEXT, MBEXTRACT, MBRELEASE and hardware reset alone, and each keeps the three parts. -/
theorem frameInvariantKept : Obligations.FrameInvariantKept := by
  intro s t h ht
  refine step_keeps (P := FrameInv) ?_ frameInv_hardReset frameInv_arrival
    frameInv_of_commandBody ht h
  exact fun hu hs => (frameInv_units _).1 (hu ▸ (frameInv_units _).2 hs)

/-! ## The bound of the ready queue (R63) -/

/-- A queue of tokens of slots below `n`, at most six of each, has at most `6 * n` tokens. -/
theorem length_le_of_tokensOf {n : Nat} {ready : List Word} (hslot : ∀ t ∈ ready, tokenSlot t < n)
    (hsix : ∀ k, tokensOf k ready ≤ 6) : ready.length ≤ 6 * n := by
  induction n generalizing ready with
  | zero =>
    obtain rfl : ready = [] := List.eq_nil_iff_forall_not_mem.2 fun t ht => by
      simpa using hslot t ht
    simp
  | succ n ih =>
    have hlow : (ready.filter fun t => !decide (tokenSlot t = n)).length ≤ 6 * n := by
      refine ih (fun t ht => ?_) (fun k => ?_)
      · obtain ⟨hmem, hne⟩ := List.mem_filter.1 ht
        have := hslot t hmem
        simp only [Bool.not_eq_true', decide_eq_false_iff_not] at hne
        omega
      · exact (List.filter_sublist.filter _).length_le.trans (hsix k)
    have htop := hsix n
    have hsplit := List.length_eq_length_filter_add (l := ready) fun t => decide (tokenSlot t = n)
    rw [tokensOf] at htop
    omega

/-- Settles O19: a queued token is valid, so its slot is below NSLOTS, and each slot has at most
six. -/
theorem readyQueueBounded : Obligations.ReadyQueueBounded := by
  intro s h
  refine length_le_of_tokensOf (fun t ht => ?_) h.tokensPerSlot
  obtain ⟨-, -, hn, -⟩ := validToken_iff.1 (h.tokensValid t ht)
  exact hn

end Sys2Proof.Machine
end

section
/-! SUPPORT. A host write to a command register issues its word, and where a fetched word is put. -/

namespace Sys2Proof.Machine

open Sys2Proof

/-! ## Writes to the command registers (R33, R86, R103) -/

/-- The block address of a register's platform address (R101, R103). -/
theorem blockAddress_hostBase (c : Config) {off : Nat} (h : off < 0x1000) :
    blockAddress c (c.hostBase + off) = some off := by
  unfold blockAddress
  rw [if_pos (by omega), Nat.add_sub_cancel_left]

/-- A 32-bit host write at the offset of a register writes that register (R101, R104). -/
theorem perform_writeWord {s : State} {off : Nat} {r : Reg} {w : Word} (h : off < 0x1000)
    (ha : off % 4 = 0) (hr : registerAt s.config off = some r) :
    perform s (.writeWord (s.config.hostBase + off) w) = writeRegister s r w := by
  have hwin : windowOf off = 0 := Nat.div_eq_of_lt (by omega)
  have hoff : offsetOf off = off := Nat.mod_eq_of_lt (by omega)
  have hacc : registerAccess s.config .word off = some r := by
    rw [registerAccess, if_pos ⟨rfl, ha, h⟩, hr]
  simp only [perform, hostWrite, blockAddress_hostBase s.config h, hwin, hoff, hacc, if_true]

theorem perform_write_icmd (s : State) (w : Word) :
    perform s (.writeWord (s.config.hostBase + 0x000) w) = writeIcmd s w :=
  perform_writeWord (off := 0x000) (r := .icmd) (by decide) rfl rfl

theorem perform_write_ccmd (s : State) (w : Word) :
    perform s (.writeWord (s.config.hostBase + 0x200) w) = writeCcmd s w :=
  perform_writeWord (off := 0x200) (r := .ccmd) (by decide) rfl rfl

theorem writeIcmd_of_decode {s : State} {w : Word} {i : Instr} (hb : s.ing.stat.busy = false)
    (hd : decodeOn .ingest w = .ok i) :
    writeIcmd s w = exec i { s with ing := { s.ing with cmd := w } } := by
  rw [writeIcmd, hb]
  exact issueIngest_of_decode hd

theorem writeCcmd_of_decode {s : State} {w : Word} {i : Instr} (hb : s.con.stat.busy = false)
    (hd : decodeOn .consumer w = .ok i) :
    writeCcmd s w = exec i { s with con := { s.con with cmd := w } } := by
  rw [writeCcmd, hb]
  exact issueConsumer_of_decode hd

/-! ## The environment's turn (R121) -/

theorem step_of_environmentTurn {s : State} (hw : s.config.wf = true) (h : environmentTurn s) :
    step s = perform (takeMove s) (nextMove s) := by
  obtain ⟨hi, hc⟩ := h
  simp [step_of_wf hw, advance, retryIngest, retryConsumer, hi, hc]

theorem takeMove_config (s : State) : (takeMove s).config = s.config := by rw [takeMove_eq]

theorem step_of_write_icmd {s : State} {w : Word} (hw : s.config.wf = true)
    (h : environmentTurn s) (hn : nextWrites s 0x000 w) : step s = writeIcmd (takeMove s) w := by
  rw [step_of_environmentTurn hw h, hn, ← takeMove_config s, perform_write_icmd]

theorem step_of_write_ccmd {s : State} {w : Word} (hw : s.config.wf = true)
    (h : environmentTurn s) (hn : nextWrites s 0x200 w) : step s = writeCcmd (takeMove s) w := by
  rw [step_of_environmentTurn hw h, hn, ← takeMove_config s, perform_write_ccmd]

/-! ## A fetched word -/

theorem wordOfBits_toNat (w : Word) : wordOfBits 32 w.toNat = w := by
  rw [wordOfBits, Nat.mod_eq_of_lt w.isLt, BitVec.ofNat_toNat, BitVec.setWidth_eq]

/-- The state a scheduled word stands before, once its move is taken: no port is held. -/
def portsFreed (s : State) : State :=
  { s with
    ing := { s.ing with stat := { s.ing.stat with busy := false } }
    con := { s.con with stat := { s.con.stat with busy := false } } }

/-- A scheduled word is the environment's next move, and it is the environment's turn (R121). -/
theorem scheduleWord_turn (s : State) (w : Word) :
    environmentTurn (scheduleWord s w) ∧ takeMove (scheduleWord s w) = portsFreed s :=
  ⟨⟨rfl, rfl⟩, rfl⟩

theorem scheduleWord_writes_icmd {s : State} {w : Word} {i : Instr} (hd : decode w = .ok i)
    (hp : i.port = .ingest) : nextWrites (scheduleWord s w) 0x000 w := by
  simp [nextWrites, scheduleWord, nextMove, decodeOn, hd, hp]

theorem scheduleWord_writes_ccmd {s : State} {w : Word} {i : Instr} (hd : decode w = .ok i)
    (hp : i.port = .consumer) : nextWrites (scheduleWord s w) 0x200 w := by
  simp [nextWrites, scheduleWord, nextMove, decodeOn, hd, hp]

/-- The very next step writes a fetched ingest word to ICMD (R127). -/
theorem step_withFetchWord_ingest {s : State} {w : Word} {i : Instr} (hw : s.config.wf = true)
    (hd : decode w = .ok i) (hp : i.port = .ingest) :
    step (s.withFetchWord 32 w.toNat) = writeIcmd (portsFreed s) w := by
  obtain ⟨hturn, htake⟩ := scheduleWord_turn s w
  have hwf : (scheduleWord s w).config.wf = true := hw
  rw [State.withFetchWord, wordOfBits_toNat,
    step_of_write_icmd hwf hturn (scheduleWord_writes_icmd hd hp), htake]

/-- The very next step writes a fetched consumer word to CCMD (R127). -/
theorem step_withFetchWord_consumer {s : State} {w : Word} {i : Instr} (hw : s.config.wf = true)
    (hd : decode w = .ok i) (hp : i.port = .consumer) :
    step (s.withFetchWord 32 w.toNat) = writeCcmd (portsFreed s) w := by
  obtain ⟨hturn, htake⟩ := scheduleWord_turn s w
  have hwf : (scheduleWord s w).config.wf = true := hw
  rw [State.withFetchWord, wordOfBits_toNat,
    step_of_write_ccmd hwf hturn (scheduleWord_writes_ccmd hd hp), htake]

/-- Settles O5: on the environment's turn a step is its move, and a write to a free port's command
register evaluates the stored word. -/
theorem stepRunsIssuedCommand : Obligations.StepRunsIssuedCommand := by
  refine ⟨?ingest, ?consumer, ?busy, ?fetch⟩
  case ingest =>
    intro s w i hw hturn hnext hb hd
    rw [step_of_write_icmd hw hturn hnext, writeIcmd_of_decode (by rwa [takeMove_ing]) hd,
      takeMove_ing]
  case consumer =>
    intro s w i hw hturn hnext hb hd
    rw [step_of_write_ccmd hw hturn hnext, writeCcmd_of_decode (by rwa [takeMove_con]) hd,
      takeMove_con]
  case busy =>
    rintro s w hw hturn (⟨hnext, hb⟩ | ⟨hnext, hb⟩)
    · rw [step_of_write_icmd hw hturn hnext, writeIcmd, takeMove_ing, if_pos hb]
    · rw [step_of_write_ccmd hw hturn hnext, writeCcmd, takeMove_con, if_pos hb]
  case fetch =>
    intro s w i hw hd
    cases hp : i.port with
    | ingest =>
      rw [step_withFetchWord_ingest hw hd hp]
      exact writeIcmd_of_decode rfl (decodeOn_eq_ok.2 ⟨hd, hp⟩)
    | consumer =>
      rw [step_withFetchWord_consumer hw hd hp]
      exact writeCcmd_of_decode rfl (decodeOn_eq_ok.2 ⟨hd, hp⟩)

end Sys2Proof.Machine
end

section
/-! SUPPORT. Where bytes are stored: each memory operation stores inside its space, each command
inside the spaces it may write, each step inside some space; and the two statements that follow. -/

namespace Sys2Proof.Machine

open Sys2Proof

/-! ## Stores at given addresses -/

/-- The memory after some bytes are stored in `m`, each at an address where `P` holds. -/
inductive StoresIn (P : Nat → Prop) (m : List Host.Cell) : List Host.Cell → Prop where
  | nothing : StoresIn P m m
  | byte {m' : List Host.Cell} {a : Nat} (h : StoresIn P m m') (ha : P a) (v : Byte) :
    StoresIn P m (memSet m' a v)

section

variable {P Q : Nat → Prop} {m m' m'' : List Host.Cell}

theorem StoresIn.trans (h : StoresIn P m m') (h' : StoresIn P m' m'') : StoresIn P m m'' := by
  induction h' with
  | nothing => exact h
  | byte _ ha v ih => exact ih.byte ha v

theorem StoresIn.mono (h : StoresIn P m m') (hPQ : ∀ a, P a → Q a) : StoresIn Q m m' := by
  induction h with
  | nothing => exact .nothing
  | byte _ ha v ih => exact ih.byte (hPQ _ ha) v

theorem StoresIn.of_eq (h : m' = m) : StoresIn P m m' := h ▸ .nothing

theorem StoresIn.memSetAll (h : StoresIn P m m') {a : Nat} {bs : List Byte}
    (hP : ∀ k < bs.length, P (a + k)) : StoresIn P m (memSetAll m' a bs) := by
  induction bs generalizing m' a with
  | nil => exact h
  | cons b rest ih =>
    refine ih (h.byte (hP 0 (Nat.zero_lt_succ _)) b) fun k hk => ?_
    rw [Nat.add_right_comm]
    exact hP (k + 1) (Nat.succ_lt_succ hk)

theorem StoresIn.memWf (h : StoresIn P m m') (hm : memWf m = true) : memWf m' = true := by
  induction h with
  | nothing => exact hm
  | byte _ _ v ih => exact memWf_memSet ih _ v

theorem StoresIn.mem_or {c : Host.Cell} (h : StoresIn P m m') (hc : c ∈ m') : P c.1 ∨ c ∈ m := by
  induction h with
  | nothing => exact .inr hc
  | byte _ ha v ih =>
    obtain rfl | hc := mem_memSet hc
    · exact .inl ha
    · exact ih hc

theorem StoresIn.memGet_of_not {a : Nat} (h : StoresIn P m m') (ha : ¬P a) :
    memGet m' a = memGet m a := by
  induction h with
  | nothing => rfl
  | byte _ hb v ih =>
    refine (memGet_memSet_of_ne _ v ?_).trans ih
    rintro rfl
    exact ha hb

end

/-! ## The memory operations (R100, R201, R382) -/

theorem inSpace_base_add {c : Config} {sp : Space} {o : Nat} (h : o < sp.size c) :
    inSpace c sp (sp.base + o) := ⟨Nat.le_add_right .., Nat.add_lt_add_left h _⟩

theorem inSpace.insideASpace {c : Config} {sp : Space} {a : Nat} (h : inSpace c sp a) :
    insideASpace c a := by
  obtain ⟨hle, hlt⟩ := h
  exact ⟨sp, a - sp.base, by omega, by omega⟩

theorem stores_of_memWrite {s t : State} {sp : Space} {off : Nat} {bs : List Byte}
    (h : memWrite s sp off bs = some t) : StoresIn (inSpace s.config sp) s.mem t.mem := by
  obtain ⟨hfits, rfl⟩ := memWrite_eq_some.1 h
  refine StoresIn.nothing.memSetAll fun k hk => ?_
  rw [Nat.add_assoc]
  exact inSpace_base_add (by omega)

theorem StoresIn.setWord {P : Nat → Prop} {m : List Host.Cell} {s : State} {c : Config}
    {sp : Space} {i : Nat} (h : StoresIn P m s.mem) (hi : wordByte i + 1 < sp.size c)
    (hP : ∀ a, inSpace c sp a → P a) (v : BitVec 10) : StoresIn P m (setWord s sp i v).mem :=
  (h.byte (hP _ (inSpace_base_add (by omega))) _).byte (hP _ (inSpace_base_add hi)) _

/-- The addresses of the half-frame buffers of a slot. -/
def inHalves (c : Config) (k : Nat) (a : Nat) : Prop :=
  inSpace c (.halfA k) a ∨ inSpace c (.halfB k) a

/-- The two words of group `g` of a half lie in its bytes up to `5 * (g + 1) / 2` (R382). -/
theorem wordByte_group_lt {g n : Nat} (h : 5 * (g + 1) ≤ 2 * n) :
    wordByte (2 * g) + 1 < n ∧ wordByte (2 * g + 1) + 1 < n := by
  unfold wordByte
  omega

theorem stores_storeGroup {s : State} {k g : Nat}
    (h : 5 * (g + 1) ≤ 2 * (Space.halfA k).size s.config) (a0 a1 b0 b1 : BitVec 10) :
    StoresIn (inHalves s.config k) s.mem (storeGroup s k g a0 a1 b0 b1).mem := by
  obtain ⟨h0, h1⟩ := wordByte_group_lt h
  have hA (a : Nat) : inSpace s.config (.halfA k) a → inHalves s.config k a := .inl
  have hB (a : Nat) : inSpace s.config (.halfB k) a → inHalves s.config k a := .inr
  have hsize : (Space.halfB k).size s.config = (Space.halfA k).size s.config := rfl
  have hnone : StoresIn (inHalves s.config k) s.mem s.mem := .nothing
  have hstored := (hnone.setWord h0 hA a0).setWord h1 hA a1
  rw [← hsize] at h0 h1
  exact (hstored.setWord h0 hB b0).setWord h1 hB b1

theorem stores_demuxGroup {s : State} {k g : Nat}
    (h : 5 * (g + 1) ≤ 2 * (Space.halfA k).size s.config) :
    StoresIn (inHalves s.config k) s.mem (demuxGroup s k g).mem := by
  unfold demuxGroup
  exact stores_storeGroup h _ _ _ _

theorem demuxGroups_config (s : State) (k count : Nat) :
    (demuxGroups s k count).config = s.config := by
  rw [demuxGroups_eq]

theorem stores_demuxGroups {s : State} {k count : Nat}
    (h : 5 * count ≤ 2 * (Space.halfA k).size s.config) :
    StoresIn (inHalves s.config k) s.mem (demuxGroups s k count).mem := by
  induction count with
  | zero => exact .nothing
  | succ g ih =>
    have hg := stores_demuxGroup (s := demuxGroups s k g) (k := k) (g := g)
    rw [demuxGroups_config] at hg
    exact (ih (by omega)).trans (hg h)

theorem stores_of_demuxFor {s t : State} {w : Word} {slot : Slot} {p : Profile}
    (h : demuxFor s w slot p = some t) :
    StoresIn (inHalves s.config (tokenSlot w)) s.mem t.mem := by
  unfold demuxFor at h
  split at h
  · obtain ⟨-, hfits, rfl⟩ := demux_eq_some.1 h
    exact stores_demuxGroups (by omega)
  · cases h
    exact .nothing

/-! ## FAADD (R318) -/

theorem mem_of_endOfFrame {s u : State} {k plen : Nat} {q : Seq} {flags flags' : CmdFlags}
    {code : Status} (h : endOfFrame s k plen q flags = .done u code flags') : u.mem = s.mem := by
  obtain rfl | ⟨index, p, -, -, -, rfl⟩ := endOfFrame_eq_done h <;> rfl

theorem stores_of_appendPayload {s u : State} {k : Nat} {h : PacketHead} {flags flags' : CmdFlags}
    {code : Status} (hd : appendPayload s k h flags = .done u code flags') :
    StoresIn (inSpace s.config (.frame k)) s.mem u.mem := by
  unfold appendPayload at hd
  dsimp only at hd
  split at hd
  · cases hd
    exact .nothing
  split at hd
  · cases hd
  split at hd
  · cases hd
  next s1 hw =>
    have hs := stores_of_memWrite hw
    split at hd
    · rw [mem_of_endOfFrame hd]
      exact hs
    · cases hd
      exact hs

/-- Steps 3 and 4 of FAADD leave the configuration, the memory and the slots alone (R314, R315). -/
theorem packetTaken_keeps (s : State) (q : Seq) :
    (packetTaken s q).config = s.config ∧ (packetTaken s q).mem = s.mem ∧
      (packetTaken s q).slots = s.slots := by
  have hstart : (startNextFrame s).config = s.config ∧ (startNextFrame s).mem = s.mem ∧
      (startNextFrame s).slots = s.slots := by
    unfold startNextFrame
    split <;> exact ⟨rfl, rfl, rfl⟩
  rw [packetTaken]
  cases h : sequenceLost (startNextFrame s) q with
  | false => rw [sequenceCheck_of_ok h]; exact hstart
  | true => rw [sequenceCheck_of_lost h]; exact hstart

theorem config_mem_of_acquireSlot {s t : State} {k : Nat} (h : acquireSlot s = some (t, k)) :
    t.config = s.config ∧ t.mem = s.mem := by
  obtain ⟨c, -, -, rfl⟩ | ⟨-, -, rfl⟩ := acquireSlot_eq_some h <;> exact ⟨rfl, rfl⟩

theorem bindProfile_keeps {s t : State} {hb : HbrmtHeader} (h : bindProfile s hb = .ok t) :
    t.config = s.config ∧ t.mem = s.mem ∧ t.slots = s.slots := by
  obtain ⟨-, rfl⟩ | ⟨-, -, k, p, -, rfl⟩ := bindProfile_eq_ok h <;> exact ⟨rfl, rfl, rfl⟩

theorem stores_of_collectPacket {s u : State} {k : Nat} {h : PacketHead} {code : Status}
    {flags : CmdFlags} (hd : collectPacket s k h = .done u code flags) :
    StoresIn (inSpace s.config (.frame k)) s.mem u.mem := by
  obtain ⟨htakenc, htaken, -⟩ := packetTaken_keeps s h.rtp.seq
  obtain ⟨-, rfl | rfl⟩ | ⟨stage, rfl⟩ | ⟨-, s1, _, hb, happ⟩ := collectPacket_eq_done hd
  · exact .of_eq htaken
  · exact .of_eq htaken
  · exact .of_eq htaken
  · obtain ⟨hc, hm, -⟩ := bindProfile_keeps hb
    have hs := stores_of_appendPayload happ
    rwa [hc, hm, htaken, htakenc] at hs

theorem stores_of_faaddBody {s u : State} {code : Status} {flags : CmdFlags}
    (h : faaddBody s = .done u code flags) :
    ∃ k, StoresIn (inSpace s.config (.frame k)) s.mem u.mem := by
  obtain rfl | ⟨n, hskip⟩ | ⟨t, k, head, ha, hc⟩ := faaddBody_eq_done h
  · exact ⟨0, .nothing⟩
  · obtain ⟨kind, range, ⟨rfl, -⟩ | ⟨rfl, -⟩⟩ := transportCheck_eq_skip hskip <;>
      exact ⟨0, .nothing⟩
  · obtain ⟨hcfg, hm⟩ := config_mem_of_acquireSlot ha
    have hs := stores_of_collectPacket hc
    rw [hcfg, hm] at hs
    exact ⟨k, hs⟩

/-! ## PSREAD (R413) -/

theorem stores_of_deliver {s t : State} {l : Leg} {pkt : Packet} (h : deliver s l pkt = some t) :
    StoresIn (inSpace s.config .pkt) s.mem t.mem := by
  obtain ⟨hlen, rfl⟩ := deliver_eq_some.1 h
  exact StoresIn.nothing.memSetAll fun k hk =>
    inSpace_base_add (sp := .pkt) (show k < s.config.maxPktBytes by omega)

theorem stores_of_deliverExpecting {s u : State} {l : Leg} {pkt : Packet} {next : Seq}
    {flags flags' : CmdFlags} {code : Status}
    (h : deliverExpecting s l pkt next flags = .done u code flags') :
    StoresIn (inSpace s.config .pkt) s.mem u.mem := by
  unfold deliverExpecting at h
  split at h
  · cases h
  next s1 hd =>
    have hs := stores_of_deliver hd
    cases h
    exact hs

theorem stores_of_classify {s u : State} {l : Leg} {q : Seq} {pkt : Packet}
    {flags flags' : CmdFlags} {code : Status} (h : classify s l q pkt flags = .done u code flags') :
    StoresIn (inSpace s.config .pkt) s.mem u.mem := by
  unfold classify at h
  split at h
  · exact stores_of_deliverExpecting h
  · split at h
    · exact stores_of_deliverExpecting h
    · split at h <;> cases h <;> exact .nothing

theorem stores_of_catchUp {s u : State} {code : Status} {flags : CmdFlags}
    (h : catchUp s = .done u code flags) : StoresIn (inSpace s.config .pkt) s.mem u.mem := by
  unfold catchUp at h
  split at h
  · cases h
  dsimp only at h
  split at h
  · split at h
    · cases h
    next s1 hd =>
      have hs := stores_of_deliver hd
      cases h
      exact hs
  · split at h
    · cases h
    · cases h
      exact .nothing

theorem liveness_config_mem (s : State) (l : Leg) (t : Time) :
    (liveness s l t).1.config = s.config ∧ (liveness s l t).1.mem = s.mem := by
  obtain ⟨-, h⟩ | ⟨-, h⟩ := liveness_eq s l t <;> rw [h] <;> exact ⟨rfl, rfl⟩

theorem stores_of_psreadBody {s u : State} {code : Status} {flags : CmdFlags}
    (h : psreadBody s = .done u code flags) : StoresIn (inSpace s.config .pkt) s.mem u.mem := by
  unfold psreadBody at h
  split at h
  · exact stores_of_catchUp h
  split at h
  next held _ =>
    have hs := stores_of_deliverExpecting (s := { s with ps := { s.ps with held := none } }) h
    exact hs
  split at h
  · cases h
  next ev rest _ =>
    obtain ⟨hc, hm⟩ :=
      liveness_config_mem { s with ps := { s.ps with evq := rest } } ev.leg ev.time
    obtain rfl | rfl | ⟨-, pkt, -, hcl⟩ := handleEvent_eq_done h
    · exact .of_eq hm
    · exact .of_eq hm
    · have hs := stores_of_classify hcl
      rwa [hc, hm] at hs

/-! ## MBEXTRACT (R382, R384) -/

theorem stores_of_extractVideo {s u : State} {w : Word} {p : Profile} {code : Status}
    {flags : CmdFlags} (h : extractVideo s w p = .done u code flags) :
    StoresIn (inSpace s.config .out) s.mem u.mem := by
  unfold extractVideo at h
  dsimp only at h
  split at h
  · cases h
    exact .nothing
  split at h
  · cases h
  split at h
  · cases h
  next s1 hw =>
    have hs := stores_of_memWrite hw
    cases h
    exact hs

theorem config_of_demuxFor {s t : State} {w : Word} {slot : Slot} {p : Profile}
    (h : demuxFor s w slot p = some t) : t.config = s.config := by
  obtain rfl | ⟨m, rfl⟩ := demuxFor_eq_some h <;> rfl

theorem stores_of_mbextractBody {s u : State} {code : Status} {flags : CmdFlags}
    (h : mbextractBody s = .done u code flags) :
    StoresIn (fun a => inSpace s.config .out a ∨ inHalves s.config (tokenSlot s.con.ca0) a)
      s.mem u.mem := by
  unfold mbextractBody at h
  dsimp only at h
  split at h
  · split at h
    · cases h
      exact .nothing
    split at h
    · cases h
    split at h
    · cases h
    next s1 hs1 =>
      refine StoresIn.trans ((stores_of_demuxFor hs1).mono fun _ => .inr) ?_
      split at h
      · cases h
        exact .nothing
      · have hs := stores_of_extractVideo h
        rw [config_of_demuxFor hs1] at hs
        exact hs.mono fun _ => .inl
  · cases h
    exact .nothing

/-! ## Every command -/

/-- The addresses a command may store at (R100). -/
def mayStoreAt (i : Instr) (c : Config) (a : Nat) : Prop := ∃ sp, mayWrite i sp ∧ inSpace c sp a

theorem stores_of_w10setBody {sp sl : Nat} {s u : State} {code : Status} {flags : CmdFlags}
    (h : w10setBody sp sl s = .done u code flags) :
    StoresIn (mayStoreAt (.w10set sp sl) s.config) s.mem u.mem := by
  unfold w10setBody at h
  split at h
  · cases h
    exact .nothing
  next space _ =>
    dsimp only at h
    split at h
    · cases h
      exact .nothing
    next hwr =>
      split at h
      · cases h
        exact .nothing
      split at h
      next hfits =>
        cases h
        refine StoresIn.nothing.setWord ((wordFits_iff ..).1 hfits) (fun a ha => ⟨space, ?_, ha⟩) _
        cases space with
        | pkt => exact .inl rfl
        | work => exact .inr rfl
        | out | frame | halfA | halfB => exact absurd rfl hwr
      · cases h
        exact .nothing

/-- A command that completes has stored bytes in the spaces it may write alone (R100). -/
theorem stores_of_commandBody {i : Instr} {s u : State} {code : Status} {flags : CmdFlags}
    (h : commandBody i s = .done u code flags) :
    StoresIn (mayStoreAt i s.config) s.mem u.mem := by
  have hk := (commandBody_keeps i s).done h
  cases i with
  | w10set sp sl => exact stores_of_w10setBody h
  | faadd =>
    obtain ⟨k, hs⟩ := stores_of_faaddBody h
    exact hs.mono fun a ha => ⟨.frame k, ⟨k, rfl⟩, ha⟩
  | psread => exact (stores_of_psreadBody h).mono fun a ha => ⟨.pkt, rfl, ha⟩
  | mbextract =>
    refine (stores_of_mbextractBody h).mono fun a ha => ?_
    obtain ha | ha | ha := ha
    · exact ⟨.out, .inl rfl, ha⟩
    · exact ⟨_, .inr ⟨_, .inl rfl⟩, ha⟩
    · exact ⟨_, .inr ⟨_, .inr rfl⟩, ha⟩
  | _ => exact .of_eq (congrArg State.mem hk :)

/-- A command, gated, completed or held, has stored bytes in the spaces it may write alone. -/
theorem stores_of_exec {i : Instr} {s t : State} (h : exec i s = .next t) :
    StoresIn (mayStoreAt i s.config) s.mem t.mem := by
  cases hp : i.port with
  | ingest =>
    rw [exec_of_ingest hp, runIngest_eq_next] at h
    obtain ⟨-, rfl⟩ | ⟨-, u, code, flags, hb, rfl⟩ | ⟨-, -, rfl⟩ := h
    · exact .nothing
    · have hs := stores_of_commandBody hb
      exact hs
    · exact .nothing
  | consumer =>
    rw [exec_of_consumer hp, runConsumer_eq_next] at h
    obtain ⟨-, rfl⟩ | ⟨-, u, code, flags, hb, rfl⟩ | ⟨-, -, rfl⟩ := h
    · exact .nothing
    · have hs := stores_of_commandBody hb
      exact hs
    · exact .nothing

/-- Settles O22: a byte stored at none of the command's addresses reads as before. -/
theorem commandsWriteOnlyTheirSpaces : Obligations.CommandsWriteOnlyTheirSpaces := by
  intro i s t a h hne
  by_contra hout
  have hget := (stores_of_exec h).memGet_of_not hout
  have hepoch : t.epoch = s.epoch := by simpa using congrArg State.epoch (exec_keeps h)
  exact hne (by simp only [State.byteAt, hget, hepoch])

/-! ## Every step -/

theorem stores_of_issueIngest {s t : State} (h : issueIngest s = .next t) :
    StoresIn (insideASpace s.config) s.mem t.mem := by
  cases hd : decodeOn .ingest s.ing.cmd with
  | error r =>
    simp only [issueIngest, hd, Host.Outcome.next.injEq] at h
    subst h
    exact .nothing
  | ok i =>
    rw [issueIngest_of_decode hd] at h
    exact (stores_of_exec h).mono fun a ⟨_, _, ha⟩ => ha.insideASpace

theorem stores_of_issueConsumer {s t : State} (h : issueConsumer s = .next t) :
    StoresIn (insideASpace s.config) s.mem t.mem := by
  cases hd : decodeOn .consumer s.con.cmd with
  | error r =>
    simp only [issueConsumer, hd, Host.Outcome.next.injEq] at h
    subst h
    exact .nothing
  | ok i =>
    rw [issueConsumer_of_decode hd] at h
    exact (stores_of_exec h).mono fun a ⟨_, _, ha⟩ => ha.insideASpace

theorem stores_writeWindow (s : State) (sp : Space) (o : Nat) (bs : List Byte) :
    StoresIn (inSpace s.config sp) s.mem (writeWindow s sp o bs).mem := by
  induction bs generalizing s o with
  | nil => exact .nothing
  | cons b rest ih =>
    unfold writeWindow
    split
    next ho =>
      have hb := StoresIn.nothing.byte (m := s.mem) (inSpace_base_add ho) b
      exact hb.trans (ih (s.setSpaceByte sp o b) (o + 1))
    next => exact ih s (o + 1)

theorem stores_hostWriteBytes (s : State) (a : Nat) (bs : List Byte) :
    StoresIn (insideASpace s.config) s.mem (hostWriteBytes s a bs).mem := by
  unfold hostWriteBytes
  split
  · exact .nothing
  · split
    · exact (stores_writeWindow ..).mono fun _ => inSpace.insideASpace
    · exact .nothing

theorem stores_of_hostWrite {s t : State} {w : Width} {addr : Nat} {v : Word} {bytes : List Byte}
    (h : hostWrite s w addr v bytes = .next t) : StoresIn (insideASpace s.config) s.mem t.mem := by
  obtain hs | ⟨r, hs⟩ | ⟨a, hs⟩ | ⟨-, hs⟩ | ⟨-, hs⟩ := hostWrite_cases s w addr v bytes <;>
    rw [hs] at h
  · cases h
    exact .nothing
  · cases h
    rw [storeRegister_eq]
    exact .nothing
  · cases h
    exact stores_hostWriteBytes s a bytes
  · have hi := stores_of_issueIngest h
    exact hi
  · have hc := stores_of_issueConsumer h
    exact hc

theorem takeMove_mem (s : State) : (takeMove s).mem = s.mem := by rw [takeMove_eq]

/-- A step forgets the memory, which hardware reset does, or stores bytes inside spaces alone. -/
theorem stores_of_step {s t : State} (h : step s = .next t) :
    t.mem = [] ∨ StoresIn (insideASpace s.config) s.mem t.mem := by
  obtain ⟨-, hs⟩ | ⟨-, -, hs⟩ | ⟨-, -, -, hs⟩ | ⟨-, -, -, hs⟩ := step_cases s <;> rw [hs] at h
  case inl => cases h
  case inr.inl => exact .inr (stores_of_issueIngest h)
  case inr.inr.inl => exact .inr (stores_of_issueConsumer h)
  case inr.inr.inr =>
    rw [← takeMove_mem s, ← takeMove_config s]
    obtain ⟨d, hm⟩ | ⟨l, bytes, time, -, hm⟩ | ⟨-, hm⟩ | ⟨w, addr, v, bytes, hm⟩ :=
      perform_cases (takeMove s) (nextMove s) <;> rw [hm] at h
    · cases h
      exact .inr .nothing
    · cases h
      rw [arrival_eq]
      exact .inr .nothing
    · cases h
      exact .inl rfl
    · exact .inr (stores_of_hostWrite h)

/-- Settles O14: a step forgets the memory or stores bytes inside spaces, and the configuration is
the same after it. -/
theorem memoryInvariantKept : Obligations.MemoryInvariantKept := by
  intro s t ⟨hwf, hin⟩ h
  obtain hm | hs := stores_of_step h
  · exact ⟨by simp [hm], by simp [hm]⟩
  · refine ⟨hs.memWf hwf, fun c hc => ?_⟩
    rw [configNeverChanges s t h]
    obtain hc | hc := hs.mem_or hc
    · exact hc
    · exact hin c hc

end Sys2Proof.Machine
end

section
/-! SUPPORT. From a state that meets the invariant no command's pseudocode stops, so every step
answers a next state. -/

namespace Sys2Proof.Machine

open Sys2Proof

/-- A command completes or holds: the model does not stop. -/
def CmdResult.Answers (r : CmdResult) : Prop :=
  match r with
  | .done _ _ _ => True
  | .hold => True
  | .stop _ => False

/-! ## FAADD (R318, R319) -/

/-- With a bound profile of the table the end of a frame is decided (R319). -/
theorem endOfFrame_answers {s : State} (hbound : s.fa.profile ≠ none)
    (htable : ∀ k, s.fa.profile = some k → k.toNat < s.config.profileTable.length) (k plen : Nat)
    (q : Seq) (flags : CmdFlags) : (endOfFrame s k plen q flags).Answers := by
  unfold endOfFrame
  split
  next hnone => exact absurd hnone hbound
  next index hindex =>
    split
    next hnone => exact absurd (htable index hindex) (by simpa using hnone)
    next p _ =>
      dsimp only
      split <;> trivial

/-- The slot the assembler owns is one there is (R41, R60). -/
theorem Owning.lt_nslots {s : State} {k : Nat} (h : Owning s k) : k < s.config.nslots := by
  obtain ⟨b, hb, rfl⟩ := h.owns
  obtain ⟨x, hx, -⟩ := h.inv.curFilling b hb
  rw [← h.inv.slotCount]
  exact (List.getElem?_eq_some_iff.1 hx).1

/-- The payload of a packet inside PKT is read, and written inside the frame buffer (R318). -/
theorem appendPayload_answers {s : State} {k : Nat} {h : PacketHead} (ho : Owning s k)
    (hbound : s.fa.profile ≠ none) (hst : s.fa.state ≠ .waitingSync)
    (hhead : 12 + h.headerLen ≤ h.length) (hlen : h.length ≤ s.config.maxPktBytes)
    (flags : CmdFlags) : (appendPayload s k h flags).Answers := by
  unfold appendPayload
  dsimp only
  split
  · trivial
  next hfits =>
    split
    next hr =>
      have hout : s.config.maxPktBytes < 12 + h.headerLen + payloadLen h := memRead_eq_none.1 hr
      unfold payloadLen at hout
      omega
    next bytes hr =>
      obtain ⟨-, rfl⟩ := memRead_eq_some.1 hr
      split
      next hw =>
        have hout := memWrite_eq_none.1 hw
        rw [length_spaceBytes, Space.size, if_pos ho.lt_nslots] at hout
        omega
      next s1 hw =>
        obtain ⟨-, rfl⟩ := memWrite_eq_some.1 hw
        have happ : Owning (payloadAppended s k h) k := ho.payloadAppended hbound hst (by omega)
        split
        · exact endOfFrame_answers (s := payloadAppended s k h) hbound happ.inv.boundProfile ..
        · trivial

theorem collectPacket_answers {s t : State} {k : Nat} {h : PacketHead} (hi : FrameInv s)
    (ha : acquireSlot s = some (t, k)) (hhead : 12 + h.headerLen ≤ h.length)
    (hlen : h.length ≤ s.config.maxPktBytes) : (collectPacket t k h).Answers := by
  have htaken : Owning (packetTaken t h.rtp.seq) k :=
    (owning_startNextFrame hi ha).sequenceCheck h.rtp.seq
  unfold collectPacket
  dsimp only
  rw [← packetTaken]
  split
  · unfold resyncFilter
    split <;> trivial
  next hst =>
    split
    · trivial
    next s1 hb =>
      obtain ⟨hbind, hbound, hstate⟩ := htaken.bindProfile hb
      have hc : s1.config = s.config :=
        ((bindProfile_keeps hb).1.trans (packetTaken_keeps t _).1).trans
          (config_mem_of_acquireSlot ha).1
      exact appendPayload_answers hbind hbound (hstate ▸ hst) hhead (hc ▸ hlen) _

theorem faaddBody_answers {s : State} (h : FrameInv s) : (faaddBody s).Answers := by
  unfold faaddBody
  split
  · trivial
  next n hn =>
    split
    · trivial
    next head hpass =>
      obtain ⟨rtp, -, -, -, hhead, rfl⟩ := transportCheck_eq_pass.1 hpass
      split
      · trivial
      next t k ha => exact collectPacket_answers h ha hhead (packetLength_eq_some.1 hn).2

/-! ## PSREAD (R409 to R416) -/

theorem deliver_of_packetOk {s : State} {pkt : Packet} (h : packetOk s.config pkt) (l : Leg) :
    ∃ t, deliver s l pkt = some t := by
  obtain ⟨-, hmax, -⟩ := h
  exact ⟨_, deliver_eq_some.2 ⟨hmax, rfl⟩⟩

theorem deliverExpecting_answers {s : State} {pkt : Packet} (h : packetOk s.config pkt) (l : Leg)
    (next : Seq) (flags : CmdFlags) : (deliverExpecting s l pkt next flags).Answers := by
  obtain ⟨t, ht⟩ := deliver_of_packetOk h l
  simp only [deliverExpecting, ht]
  trivial

theorem classify_answers {s : State} {pkt : Packet} (h : packetOk s.config pkt) (l : Leg) (q : Seq)
    (flags : CmdFlags) : (classify s l q pkt flags).Answers := by
  unfold classify
  split
  · exact deliverExpecting_answers h ..
  · split
    · exact deliverExpecting_answers h ..
    · split <;> trivial

/-- While a gap is pending a packet is held, and what a lookup finds fits PKT (R411). -/
theorem catchUp_answers {s : State} (h : SwitchInv s) (hp : s.ps.pending ≠ 0) :
    (catchUp s).Answers := by
  obtain ⟨held, hheld⟩ := Option.isSome_iff_exists.1 (h.pendingHeld hp)
  obtain ⟨-, -, -, e, he, -⟩ := h.heldOk held hheld
  unfold catchUp
  rw [he]
  dsimp only
  split
  next pkt hl =>
    obtain ⟨t, ht⟩ := deliver_of_packetOk (h.lookup_ok hl).1 (otherLeg s.ps.master)
    rw [ht]
    trivial
  next =>
    rw [hheld]
    trivial

theorem handleEvent_answers {s : State} (h : SwitchInv s) (ev : ArrivalEvent) (flags : CmdFlags) :
    (handleEvent s ev flags).Answers := by
  unfold handleEvent
  split
  · trivial
  · split
    · trivial
    next pkt hl => exact classify_answers (h.lookup_ok hl).1 ..

/-- Popping an event and Liveness keep the switch's invariant where nothing is held (R409, R414). -/
theorem switchInv_liveness_of_pop {s : State} {ev : ArrivalEvent} {rest : List ArrivalEvent}
    (h : SwitchInv s) (hp : s.ps.pending = 0) (hh : s.ps.held = none)
    (hq : s.ps.evq = ev :: rest) :
    SwitchInv (liveness { s with ps := { s.ps with evq := rest } } ev.leg ev.time).1 := by
  obtain ⟨hring, hevq, hheld, hpending⟩ :=
    liveness_ps { s with ps := { s.ps with evq := rest } } ev.leg ev.time
  obtain ⟨hc, -⟩ := liveness_config_mem { s with ps := { s.ps with evq := rest } } ev.leg ev.time
  have hlen := h.eventQueue
  rw [hq, List.length_cons] at hlen
  refine switchInv_of_nothingHeld (fun l => ?_) ?_ (hheld.trans hh) (hpending.trans hp)
  · rw [hring l, hc]
    exact h.ring l
  · rw [hevq, hc]
    exact Nat.le_of_succ_le hlen

theorem psreadBody_answers {s : State} (h : SwitchInv s) : (psreadBody s).Answers := by
  unfold psreadBody
  split
  next hp => exact catchUp_answers h hp
  next hp =>
    split
    next held hheld =>
      obtain ⟨hok, -⟩ := h.heldOk held hheld
      exact deliverExpecting_answers (s := { s with ps := { s.ps with held := none } }) hok ..
    next hh =>
      split
      · trivial
      next ev rest hq =>
        exact handleEvent_answers (switchInv_liveness_of_pop h (not_not.1 hp) hh hq) ..

/-! ## The lines of a picture (R250, R384) -/

theorem wf_of_mem_profileTable {c : Config} {p : Profile} (h : c.wf = true)
    (hp : p ∈ c.profileTable) : p.wf = true := by
  simp only [Config.wf, Config.tableOk, Bool.and_eq_true, List.all_eq_true] at h
  obtain ⟨⟨⟨-, ⟨-, hall⟩, -⟩, -⟩, -⟩ := h
  exact hall p hp

/-- Every line of the picture is a scanline of the frame (R6, R384). -/
theorem line_lt_scanlinesNb {p : Profile} (h : p.wf = true) (phase : FieldPhase) {j : Nat}
    (hj : j < p.activeHeight) : p.line phase j < p.scanlinesNb := by
  have hl : p.linesOk = true := by
    simp only [Profile.wf, Bool.and_eq_true] at h
    exact h.2
  unfold Profile.linesOk at hl
  unfold Profile.line
  cases hi : p.interlaced with
  | false =>
    simp only [hi, Bool.false_eq_true, if_false, decide_eq_true_eq] at hl
    rw [if_pos rfl]
    omega
  | true =>
    simp only [hi, if_true, Bool.and_eq_true, decide_eq_true_eq] at hl
    obtain ⟨⟨⟨⟨heven, h1⟩, h2⟩, hlen1⟩, hlen2⟩ := hl
    rw [if_neg (by simp)]
    cases phase <;> dsimp only <;> split <;> omega

/-- The active part of a line ends inside its scanline (R6, R250). -/
theorem xOffsetBytes_add_activeWidthBytes_le {p : Profile} (h : p.activeWidth ≤ p.scanlineWidth) :
    p.xOffsetBytes + p.activeWidthBytes ≤ p.scanlineSizeBytes := by
  have hsplit :
      (p.scanlineWidth - p.activeWidth) * p.componentsNb * p.bitDepth +
        p.activeWidth * p.componentsNb * p.bitDepth =
      p.scanlineWidth * p.componentsNb * p.bitDepth := by
    rw [← Nat.add_mul, ← Nat.add_mul, Nat.sub_add_cancel h]
  unfold Profile.xOffsetBytes Profile.activeWidthBytes Profile.scanlineSizeBytes
  rw [← hsplit]
  exact Nat.div_add_div_le_add_div ..

/-- The active part of every line of the picture is inside the frame (R384). -/
theorem line_end_le_frameSizeBytes {p : Profile} (h : p.wf = true) (phase : FieldPhase) {j : Nat}
    (hj : j < p.activeHeight) :
    p.line phase j * p.scanlineSizeBytes + p.xOffsetBytes + p.activeWidthBytes ≤
      p.frameSizeBytes := by
  have hwidth : p.activeWidth ≤ p.scanlineWidth := by
    simp only [Profile.wf, Profile.divisible, Bool.and_eq_true, decide_eq_true_eq] at h
    omega
  calc p.line phase j * p.scanlineSizeBytes + p.xOffsetBytes + p.activeWidthBytes
      ≤ p.line phase j * p.scanlineSizeBytes + p.scanlineSizeBytes := by
        have := xOffsetBytes_add_activeWidthBytes_le hwidth
        omega
    _ = p.scanlineSizeBytes * (p.line phase j + 1) := by rw [Nat.mul_succ, Nat.mul_comm]
    _ ≤ p.frameSizeBytes := Nat.mul_le_mul_left _ (line_lt_scanlinesNb h phase hj)

/-- A picture whose every line is inside the space is read (R384). -/
theorem picture_of_lines {s : State} {sp : Space} {p : Profile} {j count : Nat}
    (h : ∀ i < j + count,
      p.line s.config.fieldPhase i * p.scanlineSizeBytes + p.xOffsetBytes + p.activeWidthBytes ≤
        sp.size s.config) : ∃ bs, picture s sp p j count = some bs := by
  induction count generalizing j with
  | zero => exact ⟨[], rfl⟩
  | succ n ih =>
    obtain ⟨rest, hrest⟩ := ih (j := j + 1) fun i hi => h i (by omega)
    have hline := memRead_eq_some.2 ⟨h j (by omega), rfl⟩
    exact ⟨_, by rw [picture, hline, hrest]⟩

/-! ## MBEXTRACT (R381 to R384) -/

/-- What the invariant says of the record of a valid token (R320, R380): the record is of the table
and well-formed, its transport frame fits the frame buffer, and the slot is there. -/
structure TokenRecord (s : State) (w : Word) (slot : Slot) (p : Profile) : Prop where
  wf : p.wf = true
  slotThere : tokenSlot w < s.config.nslots
  frameFits : p.transportFrameSizeBytes ≤ s.config.frameBufBytes
  halvesFit : tokenPart w ≠ partFull →
    p.multiplexed = true ∧ p.transportFrameSizeBytes ≤ 2 * s.config.halfBufBytes

theorem tokenRecord_of_valid {s : State} {w : Word} {slot : Slot} (h : FrameInv s)
    (hv : validToken s w = true) (hslot : s.slots[tokenSlot w]? = some slot) :
    ∃ p, s.config.profileTable[slot.profile.toNat]? = some p ∧ TokenRecord s w slot p := by
  obtain ⟨x, hx, hn, -, hready, -, -, -, hdual⟩ := validToken_iff.1 hv
  obtain rfl : slot = x := Option.some.inj (hslot.symm.trans hx)
  obtain ⟨p, hp, hmul, hfits⟩ := h.readySlots _ slot hslot hready
  have hmem := List.mem_of_getElem? hp
  refine ⟨p, hp, wf_of_mem_profileTable h.config hmem, hn, hfits, fun hpart => ?_⟩
  have hpm : p.multiplexed = true := by
    rw [← hmul]
    exact Bool.not_eq_false _ ▸ fun hd => hpart (hdual.2 hd)
  refine ⟨hpm, ?_⟩
  obtain ⟨-, hhalf, -⟩ := buffersOk_iff.1 (buffersOk_of_wf h.config)
  obtain hsingle | hhalf := hhalf
  · exact absurd hpm (by simp [hsingle p hmem])
  · exact (transportFrameSizeBytes_le_maxTransport hmem).trans hhalf

/-- The demux due, if any, stays inside the buffers (R382). -/
theorem TokenRecord.demuxFor {s : State} {w : Word} {slot : Slot} {p : Profile}
    (h : TokenRecord s w slot p) : ∃ t, demuxFor s w slot p = some t := by
  unfold Machine.demuxFor
  split
  next hdue =>
    refine ⟨_, demux_eq_some.2 ⟨?_, ?_, rfl⟩⟩
    · rw [Space.size, if_pos h.slotThere]
      exact h.frameFits
    · rw [Space.size, if_pos h.slotThere]
      exact (h.halvesFit hdue.1).2
  next => exact ⟨s, rfl⟩

/-- The frame of one part is inside the buffer its picture is read from (R381). -/
theorem TokenRecord.frameSizeBytes_le {s : State} {w : Word} {slot : Slot} {p : Profile}
    (h : TokenRecord s w slot p) : p.frameSizeBytes ≤ (tokenSpace w).size s.config := by
  have hframe := h.frameFits
  have hhalves := h.halvesFit
  unfold Profile.transportFrameSizeBytes at hframe hhalves
  unfold tokenSpace
  split
  next =>
    rw [Space.size, if_pos h.slotThere]
    split at hframe <;> omega
  next hpart =>
    obtain ⟨hmul, hhalf⟩ := hhalves hpart
    rw [if_pos hmul] at hhalf
    split <;> rw [Space.size, if_pos h.slotThere] <;> omega

theorem TokenRecord.extractVideo_answers {s t : State} {w : Word} {slot : Slot} {p : Profile}
    (h : TokenRecord s w slot p) (hc : t.config = s.config) : (extractVideo t w p).Answers := by
  have hlines (i : Nat) (hi : i < 0 + p.activeHeight) :
      p.line t.config.fieldPhase i * p.scanlineSizeBytes + p.xOffsetBytes + p.activeWidthBytes ≤
        (tokenSpace w).size t.config := by
    rw [Nat.zero_add] at hi
    rw [hc]
    exact (line_end_le_frameSizeBytes h.wf _ hi).trans h.frameSizeBytes_le
  obtain ⟨bs, hbs⟩ := picture_of_lines hlines
  unfold extractVideo
  dsimp only
  split
  · trivial
  next hfits =>
    rw [hbs]
    dsimp only
    split
    next hw =>
      have hout : t.config.outBytes < 0 + bs.length := memWrite_eq_none.1 hw
      rw [length_of_picture hbs] at hout
      omega
    next => trivial

theorem mbextractBody_answers {s : State} (h : FrameInv s) : (mbextractBody s).Answers := by
  unfold mbextractBody
  dsimp only
  split
  next hv =>
    split
    · trivial
    next slot hslot =>
      obtain ⟨p, hp, hrec⟩ := tokenRecord_of_valid h hv hslot
      obtain ⟨t, ht⟩ := hrec.demuxFor
      rw [hp]
      dsimp only
      rw [ht]
      dsimp only
      split
      · trivial
      · exact hrec.extractVideo_answers (config_of_demuxFor ht)
  next => trivial

/-! ## Every command and every step -/

/-- Only FAADD, PSREAD and MBEXTRACT have a path on which the model stops, and under the invariant
none takes it. -/
theorem commandBody_answers {s : State} (hf : FrameInv s) (hs : SwitchInv s) (i : Instr) :
    (commandBody i s).Answers := by
  cases i with
  | faadd => exact faaddBody_answers hf
  | psread => exact psreadBody_answers hs
  | mbextract => exact mbextractBody_answers hf
  | fareset | faabort | psinit | crcwords => trivial
  | w10get sp sl =>
    change (w10getBody sp sl s).Answers
    unfold w10getBody
    split
    · trivial
    · dsimp only; split <;> trivial
  | w10set sp sl =>
    change (w10setBody sp sl s).Answers
    unfold w10setBody
    split
    · trivial
    · dsimp only; repeat' split
      all_goals trivial
  | rtpparse =>
    change (rtpparseBody s).Answers
    unfold rtpparseBody
    split
    · trivial
    · split <;> trivial
  | hbrmtdec =>
    change (hbrmtdecBody s).Answers
    unfold hbrmtdecBody
    split
    · trivial
    · dsimp only; repeat' split
      all_goals trivial
  | profres =>
    change (profresBody s).Answers
    unfold profresBody
    dsimp only
    split <;> trivial
  | crccomp sp sl =>
    change (crccompBody sp sl s).Answers
    unfold crccompBody
    split
    · trivial
    · dsimp only; split <;> trivial
  | crccheck sp sl =>
    change (crccheckBody sp sl s).Answers
    unfold crccheckBody
    split
    · trivial
    · dsimp only; split <;> trivial
  | mbnext =>
    change (mbnextBody s).Answers
    unfold mbnextBody
    split <;> trivial
  | mbtype =>
    change (mbtypeBody s).Answers
    unfold mbtypeBody
    split <;> trivial
  | mbrelease =>
    change (mbreleaseBody s).Answers
    unfold mbreleaseBody
    dsimp only
    split
    · trivial
    · split <;> trivial

theorem runIngest_answers {s : State} {body : State → CmdResult} (h : (body s).Answers) :
    ∃ t, runIngest s body = .next t := by
  cases hr : runIngest s body with
  | next t => exact ⟨t, rfl⟩
  | fault f =>
    rw [(runIngest_eq_fault.1 hr).2] at h
    exact h.elim
  | refused r => exact absurd hr (runIngest_ne_refused s body r)

theorem runConsumer_answers {s : State} {body : State → CmdResult} (h : (body s).Answers) :
    ∃ t, runConsumer s body = .next t := by
  cases hr : runConsumer s body with
  | next t => exact ⟨t, rfl⟩
  | fault f =>
    rw [(runConsumer_eq_fault.1 hr).2] at h
    exact h.elim
  | refused r => exact absurd hr (runConsumer_ne_refused s body r)

theorem exec_answers {s : State} (hf : FrameInv s) (hs : SwitchInv s) (i : Instr) :
    ∃ t, exec i s = .next t := by
  have hbody := commandBody_answers hf hs i
  cases hp : i.port with
  | ingest =>
    rw [exec_of_ingest hp]
    exact runIngest_answers hbody
  | consumer =>
    rw [exec_of_consumer hp]
    exact runConsumer_answers hbody

theorem issueIngest_answers {s : State} (hf : FrameInv s) (hs : SwitchInv s) :
    ∃ t, issueIngest s = .next t := by
  unfold issueIngest
  split
  · exact ⟨_, rfl⟩
  · exact exec_answers hf hs _

theorem issueConsumer_answers {s : State} (hf : FrameInv s) (hs : SwitchInv s) :
    ∃ t, issueConsumer s = .next t := by
  unfold issueConsumer
  split
  · exact ⟨_, rfl⟩
  · exact exec_answers hf hs _

theorem perform_answers {s : State} (hf : FrameInv s) (hs : SwitchInv s) (m : Move) :
    ∃ t, perform s m = .next t := by
  obtain ⟨d, hm⟩ | ⟨l, bytes, time, -, hm⟩ | ⟨-, hm⟩ | ⟨w, addr, v, bytes, hm⟩ :=
    perform_cases s m <;> rw [hm]
  · exact ⟨_, rfl⟩
  · exact ⟨_, rfl⟩
  · exact ⟨_, rfl⟩
  · obtain hw | ⟨r, hw⟩ | ⟨a, hw⟩ | ⟨-, hw⟩ | ⟨-, hw⟩ := hostWrite_cases s w addr v bytes <;>
      rw [hw]
    · exact ⟨_, rfl⟩
    · exact ⟨_, rfl⟩
    · exact ⟨_, rfl⟩
    · exact issueIngest_answers (hf.congr rfl rfl rfl rfl) (hs.congr rfl rfl)
    · exact issueConsumer_answers (hf.congr rfl rfl rfl rfl) (hs.congr rfl rfl)

/-- Settles O18: the configuration is one the step accepts, and whichever turn the step is, no
command stops. -/
theorem everyStepCompletes : Obligations.EveryStepCompletes := by
  intro s ⟨_, hf, hs, _⟩
  obtain ⟨hw, -⟩ | ⟨-, -, h⟩ | ⟨-, -, -, h⟩ | ⟨-, -, -, h⟩ := step_cases s
  case inl => exact absurd hf.config (by simp [hw])
  all_goals rw [h]
  case inr.inl => exact issueIngest_answers hf hs
  case inr.inr.inl => exact issueConsumer_answers hf hs
  case inr.inr.inr =>
    have htake : FrameInv (takeMove s) ∧ SwitchInv (takeMove s) := by
      rw [takeMove_eq]
      exact ⟨hf.congr rfl rfl rfl rfl, hs.congr rfl rfl⟩
    exact perform_answers htake.1 htake.2 _

end Sys2Proof.Machine
end

section
/-! SUPPORT. How the commands change a slot's state, and the statement on the slot handoff
(R123). -/

namespace Sys2Proof.Machine

open Sys2Proof

/-! ## Handoffs -/

/-- What a command that completes with `code` may make of a slot's state (R123): nothing, FREE to
FILLING, a frame completed, or a release. -/
def Handoff (i : Instr) (code : Status) (x y : SlotState) : Prop :=
  x = y ∨ (i = .faadd ∧ x = .free ∧ y = .filling) ∨
    (i = .faadd ∧ x ≠ .ready ∧ y = .ready ∧ code = .complete) ∨
    (i = .mbrelease ∧ x = .ready ∧ y = .free)

/-- Every slot's change of state is a handoff, and no slot appears or goes. -/
structure HandedOff (i : Instr) (code : Status) (slots slots' : List Slot) : Prop where
  length : slots'.length = slots.length
  handoff : ∀ (k : Nat) (x y : Slot), slots[k]? = some x → slots'[k]? = some y →
    Handoff i code x.state y.state

section

variable {i : Instr} {code : Status} {slots slots' : List Slot} {k : Nat} {f : Slot → Slot}

theorem HandedOff.of_eq (h : slots' = slots) : HandedOff i code slots slots' := by
  subst h
  exact ⟨rfl, fun k x y hx hy => .inl (congrArg Slot.state (Option.some.inj (hx.symm.trans hy)))⟩

/-- One more slot changed, from whatever state the changes before left it in. -/
theorem HandedOff.modify (h : HandedOff i code slots slots')
    (hf : ∀ x y, slots[k]? = some x → slots'[k]? = some y → Handoff i code x.state (f y).state) :
    HandedOff i code slots (modifySlot slots' k f) where
  length := by rw [modifySlot, List.length_modify, h.length]
  handoff j x y hx hy := by
    rw [modifySlot_getElem?] at hy
    split at hy
    next hjk =>
      obtain ⟨z, hz, rfl⟩ := Option.map_eq_some_iff.1 hy
      exact hf x z (hjk ▸ hx) hz
    next => exact h.handoff j x y hx hy

/-- A frame completed makes its slot READY, whatever the slot's state was (R320). -/
theorem HandedOff.complete (h : HandedOff .faadd .complete slots slots')
    (hf : ∀ x, (f x).state = .ready) :
    HandedOff .faadd .complete slots (modifySlot slots' k f) := by
  refine h.modify fun x y _ _ => ?_
  rw [hf y]
  by_cases hx : x.state = .ready
  · exact .inl hx
  · exact .inr (.inr (.inl ⟨rfl, hx, rfl, rfl⟩))

end

/-! ## FAADD (R313, R320) -/

theorem handedOff_of_acquireSlot {s t : State} {k : Nat} (h : acquireSlot s = some (t, k))
    (code : Status) : HandedOff .faadd code s.slots t.slots := by
  obtain ⟨c, -, -, rfl⟩ | ⟨-, hfree, rfl⟩ := acquireSlot_eq_some h
  · exact .of_eq rfl
  · obtain ⟨-, ⟨z, hz, hzfree⟩, -⟩ := firstFree_eq_some hfree
    refine HandedOff.modify (.of_eq rfl) fun x y hx _ => .inr (.inl ⟨rfl, ?_, rfl⟩)
    rw [Nat.sub_zero, hx] at hz
    rwa [Option.some.inj hz]

/-- The slots after an operation of FAADD that completes with `code` and owns slot `k`: as they
were, or slot `k` READY with a frame completed (R320). -/
def PublishedOrSame (k : Nat) (code : Status) (slots slots' : List Slot) : Prop :=
  slots' = slots ∨
    (code = .complete ∧ ∃ f : Slot → Slot, (∀ x, (f x).state = .ready) ∧
      slots' = modifySlot slots k f)

theorem slots_of_endOfFrame {s u : State} {k plen : Nat} {q : Seq} {flags flags' : CmdFlags}
    {code : Status} (h : endOfFrame s k plen q flags = .done u code flags') :
    PublishedOrSame k code s.slots u.slots := by
  unfold endOfFrame at h
  split at h
  · cases h
  split at h
  · cases h
  dsimp only at h
  split at h
  · cases h
    exact .inl rfl
  · cases h
    exact .inr ⟨rfl, _, fun _ => rfl, rfl⟩

theorem slots_of_appendPayload {s u : State} {k : Nat} {h : PacketHead} {flags flags' : CmdFlags}
    {code : Status} (hd : appendPayload s k h flags = .done u code flags') :
    PublishedOrSame k code s.slots u.slots := by
  obtain rfl | ⟨-, rfl | he⟩ := appendPayload_eq_done hd
  · exact .inl rfl
  · exact .inl rfl
  · have hs := slots_of_endOfFrame he
    exact hs

theorem slots_of_collectPacket {s u : State} {k : Nat} {h : PacketHead} {code : Status}
    {flags : CmdFlags} (hd : collectPacket s k h = .done u code flags) :
    PublishedOrSame k code s.slots u.slots := by
  obtain ⟨-, -, htaken⟩ := packetTaken_keeps s h.rtp.seq
  obtain ⟨-, rfl | rfl⟩ | ⟨stage, rfl⟩ | ⟨-, s1, _, hb, happ⟩ := collectPacket_eq_done hd
  · exact .inl htaken
  · exact .inl htaken
  · exact .inl htaken
  · obtain ⟨-, -, hbind⟩ := bindProfile_keeps hb
    have hs := slots_of_appendPayload happ
    rwa [hbind, htaken] at hs

theorem handedOff_of_faaddBody {s u : State} {code : Status} {flags : CmdFlags}
    (h : faaddBody s = .done u code flags) : HandedOff .faadd code s.slots u.slots := by
  obtain rfl | ⟨n, hskip⟩ | ⟨t, k, head, ha, hc⟩ := faaddBody_eq_done h
  · exact .of_eq rfl
  · obtain ⟨kind, range, ⟨rfl, -⟩ | ⟨rfl, -⟩⟩ := transportCheck_eq_skip hskip <;> exact .of_eq rfl
  · have hacq := handedOff_of_acquireSlot ha code
    obtain hs | ⟨rfl, f, hf, hs⟩ := slots_of_collectPacket hc
    · rwa [hs]
    · rw [hs]
      exact hacq.complete hf

/-! ## Every command -/

/-- A command that completes makes no change of a slot's state but a handoff (R123). -/
theorem handedOff_of_commandBody {i : Instr} {s u : State} {code : Status} {flags : CmdFlags}
    (h : commandBody i s = .done u code flags) : HandedOff i code s.slots u.slots := by
  have hk := (commandBody_keeps i s).done h
  cases i with
  | faadd => exact handedOff_of_faaddBody h
  | mbextract =>
    obtain ⟨m, d, rfl | rfl⟩ := mbextractBody_eq_done h
    · exact .of_eq rfl
    · refine HandedOff.modify (.of_eq rfl) fun x y hx hy => .inl ?_
      rw [Option.some.inj (hx.symm.trans hy)]
  | mbrelease =>
    obtain rfl | ⟨z, hz, hready, rfl⟩ := mbreleaseBody_eq_done h
    · exact .of_eq rfl
    · refine HandedOff.modify (.of_eq rfl) fun x y hx _ => .inr (.inr (.inr ⟨rfl, ?_, rfl⟩))
      rw [hx] at hz
      rwa [Option.some.inj hz]
  | _ => exact .of_eq (slots_of_kept hk nofun nofun nofun)

/-- A command, gated, completed or held, makes no change of a slot's state but a handoff; the status
counts where a frame is completed, on the ingest port. -/
theorem handedOff_of_exec {i : Instr} {s t : State} (h : exec i s = .next t) :
    ∃ code, HandedOff i code s.slots t.slots ∧ (i.port = .ingest → t.ing.stat.code = code) := by
  cases hp : i.port with
  | ingest =>
    rw [exec_of_ingest hp, runIngest_eq_next] at h
    obtain ⟨-, rfl⟩ | ⟨-, u, code, flags, hb, rfl⟩ | ⟨-, -, rfl⟩ := h
    · exact ⟨_, .of_eq rfl, fun _ => rfl⟩
    · have hu := handedOff_of_commandBody hb
      exact ⟨code, hu, fun _ => rfl⟩
    · exact ⟨_, .of_eq rfl, fun _ => rfl⟩
  | consumer =>
    rw [exec_of_consumer hp, runConsumer_eq_next] at h
    obtain ⟨-, rfl⟩ | ⟨-, u, code, flags, hb, rfl⟩ | ⟨-, -, rfl⟩ := h
    · exact ⟨.fatal, .of_eq rfl, nofun⟩
    · have hu := handedOff_of_commandBody hb
      exact ⟨code, hu, nofun⟩
    · exact ⟨.ok, .of_eq rfl, nofun⟩

/-- Settles O25: a change of state that is a handoff is one of the three. -/
theorem slotTransitions : Obligations.SlotTransitions := by
  intro i s t h
  obtain ⟨code, ⟨hlen, hand⟩, hcode⟩ := handedOff_of_exec h
  refine ⟨hlen, fun k x y hx hy hne => ?_⟩
  obtain hsame | hfree | ⟨rfl, hx', hy', hcomplete⟩ | hrelease := hand k x y hx hy
  · exact absurd hsame hne
  · exact .inl hfree
  · exact .inr (.inl ⟨rfl, hx', hy', (hcode rfl).trans hcomplete⟩)
  · exact .inr (.inr hrelease)

end Sys2Proof.Machine
end

section
/-! SUPPORT. The word the host reads of each register, field by field. -/

namespace Sys2Proof.Machine

open Sys2Proof

/-! ## Register words as fields at positions (R32 to R61) -/

/-- A word laid out in fields is its fields at their positions. -/
theorem fieldAt_append {m n : Nat} (x : BitVec m) (y : BitVec n) (p : Nat) :
    fieldAt (x ++ y) p = fieldAt y p ||| fieldAt x (p + n) := by
  have hjoin : (x ++ y).setWidth 32 = y.setWidth 32 ||| x.setWidth 32 <<< n := by
    ext i hi
    grind
  rw [fieldAt, hjoin, BitVec.shiftLeft_or_distrib, fieldAt, fieldAt, Nat.add_comm p n,
    BitVec.shiftLeft_add]

theorem fieldAt_zero (n p : Nat) : fieldAt (0 : BitVec n) p = 0#32 := by
  simp [fieldAt]

theorem bitAt_eq_fieldAt (b : Bool) (p : Nat) : bitAt b p = fieldAt (BitVec.ofBool b) p := by
  cases b with
  | false => simp [bitAt, fieldAt]
  | true => rfl

theorem setWidth_eq_fieldAt {n : Nat} (v : BitVec n) : v.setWidth 32 = fieldAt v 0 := by
  rw [fieldAt, BitVec.shiftLeft_zero]

theorem istatWord_eq (t : IngestStat) :
    istatWord t =
      (BitVec.ofBool t.flags.swap ++ BitVec.ofBool t.flags.repaired ++
        BitVec.ofBool t.flags.loss ++ BitVec.ofBool t.busy ++ statusCode t.code).setWidth 32 := by
  simp only [istatWord, setWidth_eq_fieldAt, bitAt_eq_fieldAt, fieldAt_append, Nat.zero_add,
    BitVec.or_assoc]

theorem cstatWord_eq (t : ConsumerStat) :
    cstatWord t = (BitVec.ofBool t.busy ++ statusCode t.code).setWidth 32 := by
  simp only [cstatWord, setWidth_eq_fieldAt, fieldAt_append, bitAt_eq_fieldAt, Nat.zero_add]

theorem faStateWord_eq (f : Assembler) : faStateWord f = faStateLayout f := by
  simp only [faStateWord, faStateLayout, setWidth_eq_fieldAt, fieldAt_append, bitAt_eq_fieldAt,
    fieldAt_zero, Nat.zero_add, BitVec.zero_or, BitVec.or_assoc]
  cases f.state <;> rfl

theorem or_reverse (a b c d : Word) : a ||| b ||| c ||| d = d ||| (c ||| (b ||| a)) := by
  ac_rfl

theorem fatalWord_eq (f : Option FatalRecord) : fatalWord f = fatalLayout f := by
  cases f with
  | none => rfl
  | some r =>
    simp only [fatalWord, fatalLayout, setWidth_eq_fieldAt, fieldAt_append, bitAt_eq_fieldAt,
      fieldAt_zero, Nat.zero_add, BitVec.zero_or, or_reverse]
    cases r.cause <;> rfl

theorem eventCodes_eq (k : EventKind) : eventCodes k = (eventKindCode k, eventStageCode k) := by
  cases k <;> rfl

theorem evInfoWord_eq (e : Option EventRecord) : evInfoWord e = evInfoLayout e := by
  cases e with
  | none => rfl
  | some e =>
    obtain ⟨kind, leg, range⟩ := e
    simp only [evInfoWord, evInfoLayout, setWidth_eq_fieldAt, fieldAt_append, bitAt_eq_fieldAt,
      eventCodes_eq, Nat.zero_add, ← BitVec.or_assoc]
    rw [BitVec.or_assoc _ (fieldAt (BitVec.ofBool leg.isSome) 12)]
    match leg with
    | none => rfl
    | some .leg0 => rfl
    | some .leg1 => rfl

theorem evSeqWord_eq (e : Option EventRecord) : evSeqWord e = evSeqLayout e := by
  match e with
  | none => rfl
  | some ⟨_, _, none⟩ => rfl
  | some ⟨_, _, some (first, last)⟩ => exact (BitVec.setWidth_eq _).symm

theorem psStateWord_eq (p : Switch) : psStateWord p = psStateLayout p := by
  simp only [psStateWord, psStateLayout, setWidth_eq_fieldAt, fieldAt_append, bitAt_eq_fieldAt,
    fieldAt_zero, Nat.zero_add, BitVec.zero_or, BitVec.or_assoc]
  cases p.master <;> rfl

theorem slotInfoWord_eq (x : Slot) : slotInfoWord x = slotInfoLayout x := by
  simp only [slotInfoWord, slotInfoLayout, setWidth_eq_fieldAt, fieldAt_append, bitAt_eq_fieldAt,
    fieldAt_zero, Nat.zero_add, BitVec.zero_or, BitVec.or_assoc]
  cases x.state <;> rfl

theorem profResWord_eq (index : BitVec 8) (stage : BitVec 3) :
    fieldAt index 0 ||| fieldAt stage 8 = (stage ++ index).setWidth 32 := by
  simp only [setWidth_eq_fieldAt, fieldAt_append, Nat.zero_add]

theorem crcWordsWord_eq (c0 c1 : BitVec 10) :
    fieldAt c0 0 ||| fieldAt c1 16 = (c1 ++ (0 : BitVec 6) ++ c0).setWidth 32 := by
  simp only [setWidth_eq_fieldAt, fieldAt_append, fieldAt_zero, Nat.zero_add, BitVec.zero_or]

/-- The registers of the map read the words their offsets hold (10_state.md, sections 2 to 7). -/
theorem registerWords_eq (s : State) :
    registerWords s = registerMap.map fun e => (e.1, readRegister s e.2) := by
  simp only [registerWords, registerMap, List.map_append, List.map_cons, List.map_nil, readRegister,
    istatWord_eq, cstatWord_eq, faStateWord_eq, fatalWord_eq, psStateWord_eq, evInfoWord_eq,
    evSeqWord_eq, BitVec.setWidth_eq, profResWord_eq, crcWordsWord_eq]

end Sys2Proof.Machine
end

section
/-! SUPPORT. The host's bus: where a platform address leads, what a read there gives and what a
write there stores; and the two statements on the host's accesses. -/

namespace Sys2Proof.Machine

open Sys2Proof

/-! ## Where a register's offset leads (R101, R102, R104) -/

theorem registerMap_lookup :
    ∀ e ∈ registerMap, registerMap.lookup e.1 = some e.2 ∧ e.1 % 4 = 0 ∧ e.1 < 0x300 := by
  decide

theorem mem_registerMap_of_lookup {off : Nat} {r : Reg} (h : registerMap.lookup off = some r) :
    (off, r) ∈ registerMap := by
  obtain ⟨l₁, l₂, hl, -⟩ := List.lookup_eq_some_iff.1 h
  rw [hl]
  simp

theorem lookup_registerMap_of_le {off : Nat} (h : 0x300 ≤ off) : registerMap.lookup off = none := by
  by_contra hne
  obtain ⟨r, hr⟩ := Option.ne_none_iff_exists'.1 hne
  have := (registerMap_lookup _ (mem_registerMap_of_lookup hr)).2.2
  omega

theorem registerAt_of_mem {e : Nat × Reg} (h : e ∈ registerMap) (c : Config) :
    registerAt c e.1 = some e.2 := by
  rw [registerAt, (registerMap_lookup e h).1]

/-- The slots' registers, and the offsets between and past them (R61, R62). -/
theorem slotRegister_cases (c : Config) (off : Nat) :
    (∃ k < c.nslots, (off = 0x300 + 8 * k ∧ slotRegister c off = some (.slotInfo k)) ∨
      (off = 0x304 + 8 * k ∧ slotRegister c off = some (.slotPad k))) ∨
    ((∀ k < c.nslots, off ≠ 0x300 + 8 * k ∧ off ≠ 0x304 + 8 * k) ∧ slotRegister c off = none) := by
  unfold slotRegister
  dsimp only
  split
  next hin =>
    split
    next h0 => exact .inl ⟨_, hin.2, .inl ⟨by omega, rfl⟩⟩
    next h0 =>
      split
      next h4 => exact .inl ⟨_, hin.2, .inr ⟨by omega, rfl⟩⟩
      next h4 => exact .inr ⟨fun k _ => by omega, rfl⟩
  next hout => exact .inr ⟨fun k hk => by omega, rfl⟩

/-- A register of the map, a slot's register, or none. -/
theorem registerAt_cases (c : Config) (off : Nat) :
    (∃ r, (off, r) ∈ registerMap ∧ registerAt c off = some r) ∨
    registerAt c off = slotRegister c off := by
  unfold registerAt
  split
  next r hr => exact .inl ⟨r, mem_registerMap_of_lookup hr, rfl⟩
  next => exact .inr rfl

theorem registerAt_of_le (c : Config) {off : Nat} (h : 0x300 ≤ off) :
    registerAt c off = slotRegister c off := by
  rw [registerAt, lookup_registerMap_of_le h]

theorem registerAt_slotInfo {c : Config} {k : Nat} (hk : k < c.nslots) :
    registerAt c (0x300 + 8 * k) = some (.slotInfo k) := by
  rw [registerAt_of_le c (by omega)]
  obtain ⟨j, -, ⟨hj, h⟩ | ⟨hj, -⟩⟩ | ⟨hnone, -⟩ := slotRegister_cases c (0x300 + 8 * k)
  · rw [h, show j = k by omega]
  · omega
  · exact absurd rfl (hnone k hk).1

theorem registerAt_slotPad {c : Config} {k : Nat} (hk : k < c.nslots) :
    registerAt c (0x304 + 8 * k) = some (.slotPad k) := by
  rw [registerAt_of_le c (by omega)]
  obtain ⟨j, -, ⟨hj, -⟩ | ⟨hj, h⟩⟩ | ⟨hnone, -⟩ := slotRegister_cases c (0x304 + 8 * k)
  · omega
  · rw [h, show j = k by omega]
  · exact absurd rfl (hnone k hk).2

theorem registerAt_past_slots {c : Config} {off : Nat} (h : 0x300 + 8 * c.nslots ≤ off) :
    registerAt c off = none := by
  rw [registerAt_of_le c (by omega)]
  obtain ⟨j, hj, ⟨hoff, -⟩ | ⟨hoff, -⟩⟩ | ⟨-, hnone⟩ := slotRegister_cases c off
  · omega
  · omega
  · exact hnone

/-- An offset no register occupies (R102). -/
theorem registerAt_eq_none {s : State} {off : Nat} (hmap : ∀ e ∈ registerWords s, off ≠ e.1)
    (hslot : ∀ k < s.config.nslots, off ≠ 0x300 + 8 * k ∧ off ≠ 0x304 + 8 * k) :
    registerAt s.config off = none := by
  obtain ⟨r, hr, -⟩ | hs := registerAt_cases s.config off
  · refine absurd rfl (hmap (off, readRegister s r) ?_)
    rw [registerWords_eq]
    exact List.mem_map_of_mem hr
  · obtain ⟨k, hk, ⟨hoff, -⟩ | ⟨hoff, -⟩⟩ | ⟨-, hnone⟩ := slotRegister_cases s.config off
    · exact absurd hoff (hslot k hk).1
    · exact absurd hoff (hslot k hk).2
    · exact hs.trans hnone

/-! ## Where a platform address leads (R101, R103) -/

theorem blockAddress_add (c : Config) {a : Nat} (h : a < 2 ^ 32) :
    blockAddress c (c.hostBase + a) = some a := by
  unfold blockAddress
  rw [Nat.add_sub_cancel_left, if_pos ⟨Nat.le_add_right .., h⟩]

theorem windowOf_offset {a : Nat} (h : a / 2 ^ 24 = 0) : windowOf a = 0 ∧ offsetOf a = a :=
  ⟨h, Nat.mod_eq_of_lt (by omega)⟩

theorem windowOf_add {w o : Nat} (h : o < 2 ^ 24) :
    windowOf (w * 2 ^ 24 + o) = w ∧ offsetOf (w * 2 ^ 24 + o) = o := by
  unfold windowOf offsetOf
  omega

theorem windowSpace_zero (c : Config) : windowSpace c 0 = none := by
  simp [windowSpace]

theorem ne_zero_of_windowSpace {c : Config} {w : Nat} {sp : Space} (h : windowSpace c w = some sp) :
    w ≠ 0 := by
  rintro rfl
  simp [windowSpace_zero] at h

/-- The windows and their buffers (R101). -/
theorem windowSpace_eq_some {c : Config} (hn : c.nslots ≤ 16) (w : Nat) (sp : Space) :
    windowSpace c w = some sp ↔
      (w = 0x01 ∧ sp = .pkt) ∨ (w = 0x02 ∧ sp = .work) ∨ (w = 0x03 ∧ sp = .out) ∨
        ∃ k < c.nslots,
          (w = 0x10 + k ∧ sp = .frame k) ∨ (w = 0x20 + k ∧ sp = .halfA k) ∨
            (w = 0x30 + k ∧ sp = .halfB k) := by
  constructor
  · intro h
    unfold windowSpace at h
    split at h
    next hw => cases h; exact .inl ⟨hw, rfl⟩
    split at h
    next hw => cases h; exact .inr (.inl ⟨hw, rfl⟩)
    split at h
    next hw => cases h; exact .inr (.inr (.inl ⟨hw, rfl⟩))
    split at h
    next hw => cases h; exact .inr (.inr (.inr ⟨_, by omega, .inl ⟨by omega, rfl⟩⟩))
    split at h
    next hw => cases h; exact .inr (.inr (.inr ⟨_, by omega, .inr (.inl ⟨by omega, rfl⟩)⟩))
    split at h
    next hw => cases h; exact .inr (.inr (.inr ⟨_, by omega, .inr (.inr ⟨by omega, rfl⟩)⟩))
    · cases h
  · unfold windowSpace
    rintro (⟨rfl, rfl⟩ | ⟨rfl, rfl⟩ | ⟨rfl, rfl⟩ | ⟨k, hk, ⟨rfl, rfl⟩ | ⟨rfl, rfl⟩ | ⟨rfl, rfl⟩⟩)
    · rfl
    · rfl
    · rfl
    · iterate 3 rw [if_neg (by omega)]
      rw [if_pos (by omega), Nat.add_sub_cancel_left]
    · iterate 4 rw [if_neg (by omega)]
      rw [if_pos (by omega), Nat.add_sub_cancel_left]
    · iterate 5 rw [if_neg (by omega)]
      rw [if_pos (by omega), Nat.add_sub_cancel_left]

theorem windowSpace_of_writable (c : Config) {sp : Space} (h : sp = .pkt ∨ sp = .work) :
    windowSpace c sp.window = some sp ∧ sp.window < 2 ^ 8 := by
  obtain rfl | rfl := h <;> exact ⟨rfl, by decide⟩

theorem hostWritable_iff (sp : Space) : hostWritable sp = true ↔ sp = .pkt ∨ sp = .work := by
  cases sp <;> simp [hostWritable]

/-! ## What an access does, by where it leads -/

/-- A 32-bit read of a register (R101). -/
theorem hostRead_register {s : State} {off : Nat} {r : Reg} (ho : off < 0x1000) (ha : off % 4 = 0)
    (h : registerAt s.config off = some r) :
    hostRead s .word (s.config.hostBase + off) = readRegister s r := by
  obtain ⟨hwin, hoff⟩ := windowOf_offset (a := off) (by omega)
  simp only [hostRead, blockAddress_hostBase _ ho, hwin, hoff, if_true, registerAccess, ha, ho, h,
    and_self]

/-- An access that leads to no register and no buffer (R102). -/
theorem hostRead_undecoded {s : State} {w : Width} {a : Nat} (ha : a < 2 ^ 32)
    (h : (a / 2 ^ 24 = 0 ∧ registerAccess s.config w a = none) ∨
      (a / 2 ^ 24 ≠ 0 ∧ windowSpace s.config (a / 2 ^ 24) = none)) :
    hostRead s w (s.config.hostBase + a) = 0 := by
  obtain ⟨hw, hr⟩ | ⟨hw, hs⟩ := h
  · obtain ⟨hwin, hoff⟩ := windowOf_offset hw
    simp only [hostRead, blockAddress_add _ ha, hwin, hoff, hr, if_true]
  · simp only [hostRead, blockAddress_add _ ha, windowOf, hw, hs, if_false]

theorem hostWrite_undecoded {s : State} {w : Width} {a : Nat} (ha : a < 2 ^ 32)
    (h : (a / 2 ^ 24 = 0 ∧ registerAccess s.config w a = none) ∨
      (a / 2 ^ 24 ≠ 0 ∧ windowSpace s.config (a / 2 ^ 24) = none)) (v : Word) (bytes : List Byte) :
    hostWrite s w (s.config.hostBase + a) v bytes = .next s := by
  obtain ⟨hw, hr⟩ | ⟨hw, hs⟩ := h
  · obtain ⟨hwin, hoff⟩ := windowOf_offset hw
    simp only [hostWrite, blockAddress_add _ ha, hwin, hoff, hr, if_true]
  · simp only [hostWrite, hostWriteBytes, blockAddress_add _ ha, windowOf, hw, hs, if_false]

/-- A read of a buffer window (R104). -/
theorem hostRead_window {s : State} {sp : Space} {w o : Nat}
    (hs : windowSpace s.config w = some sp) (hw : w < 2 ^ 8) (ho : o < 2 ^ 24) (width : Width) :
    hostRead s width (s.config.hostBase + (w * 2 ^ 24 + o)) = readWindow s sp o width := by
  obtain ⟨hwin, hoff⟩ := windowOf_add (w := w) ho
  have ha : w * 2 ^ 24 + o < 2 ^ 32 := by omega
  simp only [hostRead, blockAddress_add _ ha, hwin, hoff, ne_zero_of_windowSpace hs, if_false, hs]

/-- The state after bytes are written to a window: a read-only one takes none (R101, R102). -/
def hostStored (s : State) (sp : Space) (o : Nat) (bs : List Byte) : State :=
  if hostWritable sp then writeWindow s sp o bs else s

theorem hostWriteBytes_eq_hostStored {s : State} {sp : Space} {a : Nat}
    (hs : windowSpace s.config (windowOf a) = some sp) (bytes : List Byte) :
    hostWriteBytes s a bytes = hostStored s sp (offsetOf a) bytes := by
  rw [hostWriteBytes, hs]
  rfl

theorem hostWrite_of_windowSpace {s : State} {sp : Space} {a : Nat} (ha : a < 2 ^ 32)
    (hs : windowSpace s.config (windowOf a) = some sp) (width : Width) (v : Word)
    (bytes : List Byte) :
    hostWrite s width (s.config.hostBase + a) v bytes =
      .next (hostStored s sp (offsetOf a) bytes) := by
  simp only [hostWrite, blockAddress_add _ ha, ne_zero_of_windowSpace hs, if_false,
    hostWriteBytes_eq_hostStored hs]

/-- A write to a buffer window (R101, R104). -/
theorem hostWrite_window {s : State} {sp : Space} {w o : Nat}
    (hs : windowSpace s.config w = some sp) (hw : w < 2 ^ 8) (ho : o < 2 ^ 24) (width : Width)
    (v : Word) (bytes : List Byte) :
    hostWrite s width (s.config.hostBase + (w * 2 ^ 24 + o)) v bytes =
      .next (hostStored s sp o bytes) := by
  obtain ⟨hwin, hoff⟩ := windowOf_add (w := w) ho
  have h := hostWrite_of_windowSpace (a := w * 2 ^ 24 + o) (by omega) (by rw [hwin, hs]) width v
    bytes
  rwa [hoff] at h

theorem hostStored_config (s : State) (sp : Space) (o : Nat) (bs : List Byte) :
    (hostStored s sp o bs).config = s.config := by
  unfold hostStored
  split
  · rw [writeWindow_eq]
  · rfl

/-- A wider write is its bytes' writes in order (R104). -/
theorem hostStored_cons (s : State) (sp : Space) (o : Nat) (b : Byte) (rest : List Byte) :
    hostStored s sp o (b :: rest) = hostStored (hostStored s sp o [b]) sp (o + 1) rest := by
  unfold hostStored
  split <;> rfl

/-- Single-byte host writes in order, along a window (R104). -/
theorem byteWrites_window {s : State} {sp : Space} {w o : Nat} {bs : List Byte}
    (hs : windowSpace s.config w = some sp) (hw : w < 2 ^ 8) (ho : o + bs.length ≤ 2 ^ 24) :
    byteWrites s (s.config.hostBase + (w * 2 ^ 24 + o)) bs = some (hostStored s sp o bs) := by
  induction bs generalizing s o with
  | nil =>
    rw [byteWrites, hostStored, writeWindow, ite_self]
  | cons b rest ih =>
    rw [List.length_cons] at ho
    have hc := hostStored_config s sp o [b]
    have hb : perform s (.writeByte (s.config.hostBase + (w * 2 ^ 24 + o)) b) =
        .next (hostStored s sp o [b]) :=
      hostWrite_window hs hw (by omega) .byte (b.setWidth 32) [b]
    have hrest := ih (s := hostStored s sp o [b]) (o := o + 1) (by rwa [hc]) (by omega)
    rw [hc, ← Nat.add_assoc (w * 2 ^ 24), ← Nat.add_assoc] at hrest
    simp only [byteWrites, hb, hostStored_cons s sp o b rest, hrest]

/-- Past the end of a space no byte is stored (R102). -/
theorem writeWindow_past_end {s : State} {sp : Space} {o : Nat} (h : sp.size s.config ≤ o)
    (bs : List Byte) : writeWindow s sp o bs = s := by
  induction bs generalizing o with
  | nil => rfl
  | cons b rest ih =>
    rw [writeWindow, if_neg (Nat.not_lt.2 h)]
    exact ih (Nat.le_succ_of_le h)

theorem hostStored_inert {s : State} {sp : Space} {o : Nat}
    (h : sp.size s.config ≤ o ∨ ¬(sp = .pkt ∨ sp = .work)) (bs : List Byte) :
    hostStored s sp o bs = s := by
  unfold hostStored
  split
  next hw =>
    have hpast := h.resolve_right (not_not.2 ((hostWritable_iff sp).1 hw))
    exact writeWindow_past_end hpast bs
  next => rfl

/-- The state after bytes are stored in a space from offset `o` on, whatever the space's size. -/
def withBytes (s : State) (sp : Space) (o : Nat) (bs : List Byte) : State :=
  { s with mem := memSetAll s.mem (sp.base + o) bs }

/-- Inside the space every byte is stored. -/
theorem hostStored_of_fits {s : State} {sp : Space} {o : Nat} {bs : List Byte}
    (hw : sp = .pkt ∨ sp = .work) (h : o + bs.length ≤ sp.size s.config) :
    hostStored s sp o bs = withBytes s sp o bs := by
  rw [hostStored, if_pos ((hostWritable_iff sp).2 hw)]
  clear hw
  induction bs generalizing s o with
  | nil => rfl
  | cons b rest ih =>
    rw [List.length_cons] at h
    rw [writeWindow, if_pos (by omega)]
    have hrest := ih (s := s.setSpaceByte sp o b) (o := o + 1) (by rw [setSpaceByte_config]; omega)
    rw [withBytes, ← Nat.add_assoc, setSpaceByte_mem] at hrest
    exact hrest

/-! ## The bytes of a read (R104) -/

theorem readWindow_past_end {s : State} {sp : Space} {o : Nat} (h : sp.size s.config ≤ o)
    (width : Width) : readWindow s sp o width = 0 := by
  have hbyte (j : Nat) : hostByte s sp (o + j) = 0 := if_neg (by omega)
  have hbyte0 := hbyte 0
  rw [Nat.add_zero] at hbyte0
  cases width <;> simp only [readWindow, hbyte0, hbyte] <;> rfl

/-- Four bytes joined are their values at their lanes. -/
theorem bytes_eq_lanes (a b c d : Byte) :
    (a ++ b ++ c ++ d : Word) =
      a.setWidth 32 <<< 24 ||| b.setWidth 32 <<< 16 ||| c.setWidth 32 <<< 8 ||| d.setWidth 32 := by
  have hlanes : (a ++ b ++ c ++ d).setWidth 32 =
      fieldAt d 0 ||| (fieldAt c 8 ||| (fieldAt b 16 ||| fieldAt a 24)) := by
    simp only [setWidth_eq_fieldAt, fieldAt_append, Nat.zero_add]
  rw [← BitVec.setWidth_eq (a ++ b ++ c ++ d), hlanes, or_reverse]
  simp only [fieldAt, BitVec.shiftLeft_zero]

theorem readWindow_half (s : State) (sp : Space) (o : Nat) :
    readWindow s sp o .half =
      readWindow s sp o .byte <<< 8 ||| readWindow s sp (o + 1) .byte := by
  simp only [readWindow]
  rw [setWidth_eq_fieldAt, fieldAt_append, Nat.zero_add, BitVec.or_comm]
  simp only [fieldAt, BitVec.shiftLeft_zero]

theorem readWindow_word (s : State) (sp : Space) (o : Nat) :
    readWindow s sp o .word =
      readWindow s sp o .byte <<< 24 ||| readWindow s sp (o + 1) .byte <<< 16 |||
        readWindow s sp (o + 2) .byte <<< 8 ||| readWindow s sp (o + 3) .byte :=
  bytes_eq_lanes ..

/-- be32 joins the four bytes, whichever way they are grouped (R8). -/
theorem be32_eq (s : State) (sp : Space) (o : Nat) :
    be32 s sp o =
      s.spaceByte sp o ++ s.spaceByte sp (o + 1) ++ s.spaceByte sp (o + 2) ++
        s.spaceByte sp (o + 3) :=
  BitVec.append_assoc'.trans (BitVec.cast_eq ..)

theorem word_eq_bytes (v : Word) :
    v.extractLsb' 24 8 ++ v.extractLsb' 16 8 ++ v.extractLsb' 8 8 ++ v.extractLsb' 0 8 = v := by
  iterate 3 rw [BitVec.extractLsb'_append_extractLsb'_eq_extractLsb' (by decide)]
  exact BitVec.extractLsb'_eq_self

theorem readWindow_byte_of_lt {s : State} {sp : Space} {o : Nat} (h : o < sp.size s.config) :
    readWindow s sp o .byte = (s.spaceByte sp o).setWidth 32 := by
  rw [readWindow, hostByte, if_pos h]

theorem readWindow_word_of_fits {s : State} {sp : Space} {o : Nat} (h : o + 4 ≤ sp.size s.config) :
    readWindow s sp o .word = be32 s sp o := by
  have hbyte (j : Nat) (hj : j < 4) : hostByte s sp (o + j) = s.spaceByte sp (o + j) :=
    if_pos (by omega)
  have hbyte0 := hbyte 0 (by decide)
  rw [Nat.add_zero] at hbyte0
  rw [be32_eq, readWindow, hbyte0, hbyte 1 (by decide), hbyte 2 (by decide), hbyte 3 (by decide)]

/-! ## Bytes the host stores in PKT and WORK (R100, R128) -/

/-- A byte stored is read back, and every other byte is as before. -/
theorem spaceByte_withBytes (s : State) (sp : Space) (o : Nat) (bs : List Byte) :
    (∀ k < bs.length, (withBytes s sp o bs).spaceByte sp (o + k) = bs.getD k 0) ∧
    ∀ a, ¬(sp.base + o ≤ a ∧ a < sp.base + o + bs.length) →
      (withBytes s sp o bs).byteAt a = s.byteAt a := by
  refine ⟨fun k hk => ?_, fun a ha => ?_⟩
  · rw [State.spaceByte, withBytes, byteAt_memSetAll, if_pos (by omega), ← Nat.add_assoc,
      Nat.add_sub_cancel_left]
  · rw [withBytes, byteAt_memSetAll, if_neg ha]

theorem be32_withBytes (s : State) (sp : Space) (o : Nat) (v : Word) :
    be32 (withBytes s sp o (bytesOfWord v)) sp o = v := by
  obtain ⟨hread, -⟩ := spaceByte_withBytes s sp o (bytesOfWord v)
  have hbyte0 := hread 0 (by decide : 0 < 4)
  rw [Nat.add_zero] at hbyte0
  rw [be32_eq, hbyte0, hread 1 (by decide : 1 < 4), hread 2 (by decide : 2 < 4),
    hread 3 (by decide : 3 < 4)]
  exact word_eq_bytes v

/-- What a host write inside PKT or WORK answers: the bytes stored, and nothing else changed. -/
theorem hostWrite_of_writable {s : State} {sp : Space} {o : Nat} {bs : List Byte}
    (hsp : sp = .pkt ∨ sp = .work) (hfits : o + bs.length ≤ sp.size s.config) (ho : o < 2 ^ 24)
    (width : Width) (v : Word) :
    hostWrite s width (s.config.hostBase + (sp.base + o)) v bs =
      .next (withBytes s sp o bs) := by
  obtain ⟨hs, hw⟩ := windowSpace_of_writable s.config hsp
  rw [← hostStored_of_fits hsp hfits]
  exact hostWrite_window hs hw ho width v bs

theorem hostRead_of_writable {s : State} {sp : Space} {o : Nat} (hsp : sp = .pkt ∨ sp = .work)
    (ho : o < 2 ^ 24) (width : Width) :
    hostRead s width (s.config.hostBase + (sp.base + o)) = readWindow s sp o width := by
  obtain ⟨hs, hw⟩ := windowSpace_of_writable s.config hsp
  exact hostRead_window hs hw ho width

/-! ## Registers the host may write (R90) -/

/-- The registers a host write changes: the command registers and those that store. -/
def writableRegs : List Reg :=
  [.icmd, .pktLen, .ia0, .ia1, .ia2, .ia3, .psThresh, .ccmd, .ca0, .ca1]

theorem writeRegister_readOnly {r : Reg} (h : r ∉ writableRegs) (s : State) (v : Word) :
    writeRegister s r v = .next s := by
  cases r with
  | icmd | pktLen | ia0 | ia1 | ia2 | ia3 | psThresh | ccmd | ca0 | ca1 =>
    exact absurd h (by decide)
  | _ => rfl

theorem registerMap_writable :
    ∀ e ∈ registerMap, e.2 ∈ writableRegs →
      e.1 ∈ [0x000, 0x008, 0x010, 0x014, 0x018, 0x01C, 0x030, 0x200, 0x210, 0x214] := by
  decide

theorem not_mem_writableRegs {c : Config} {off : Nat} {r : Reg} (h : registerAt c off = some r)
    (hoff : off ∉ [0x000, 0x008, 0x010, 0x014, 0x018, 0x01C, 0x030, 0x200, 0x210, 0x214]) :
    r ∉ writableRegs := by
  obtain ⟨r', hr', hat⟩ | hs := registerAt_cases c off
  · obtain rfl := Option.some.inj (h.symm.trans hat)
    exact fun hw => hoff (registerMap_writable _ hr' hw)
  · rw [hs] at h
    obtain ⟨k, -, ⟨-, hk⟩ | ⟨-, hk⟩⟩ | ⟨-, hnone⟩ := slotRegister_cases c off
    · obtain rfl := Option.some.inj (h.symm.trans hk)
      simp [writableRegs]
    · obtain rfl := Option.some.inj (h.symm.trans hk)
      simp [writableRegs]
    · cases h.symm.trans hnone

theorem registerAccess_eq_none {c : Config} {w : Width} {o : Nat}
    (h : w ≠ .word ∨ o % 4 ≠ 0 ∨ 0x1000 ≤ o ∨ registerAt c o = none) :
    registerAccess c w o = none := by
  unfold registerAccess
  split
  next hin =>
    obtain ⟨hw, ha, hlt⟩ := hin
    obtain h | h | h | h := h
    · exact absurd hw h
    · exact absurd ha h
    · omega
    · exact h
  next => rfl

/-- A 32-bit write below 0x1000 at no writable register's offset (R90, R102). -/
theorem perform_writeWord_readOnly {s : State} {a : Nat} (ha : a < 0x1000)
    (hoff : a ∉ [0x000, 0x008, 0x010, 0x014, 0x018, 0x01C, 0x030, 0x200, 0x210, 0x214])
    (v : Word) : perform s (.writeWord (s.config.hostBase + a) v) = .next s := by
  by_cases halign : a % 4 = 0
  · cases hr : registerAt s.config a with
    | some r =>
      rw [perform_writeWord ha halign hr, writeRegister_readOnly (not_mem_writableRegs hr hoff)]
    | none =>
      have hnone := registerAccess_eq_none (w := .word) (.inr (.inr (.inr hr)))
      exact hostWrite_undecoded (by omega) (.inl ⟨by omega, hnone⟩) ..
  · have hnone : registerAccess s.config .word a = none :=
      registerAccess_eq_none (.inr (.inl halign))
    exact hostWrite_undecoded (by omega) (.inl ⟨by omega, hnone⟩) ..

/-! ## The statements -/

/-- Settles O59, clause by clause from where the access leads. -/
theorem undecodedAccessesAreInert : Obligations.UndecodedAccessesAreInert := by
  refine ⟨fun _ _ _ => rfl, ?undecoded, ?window, ?readOnly, ?stores⟩
  case undecoded =>
    intro s w a v ha hcond
    have hund : (a / 2 ^ 24 = 0 ∧ registerAccess s.config w a = none) ∨
        (a / 2 ^ 24 ≠ 0 ∧ windowSpace s.config (a / 2 ^ 24) = none) := by
      obtain hwin | ⟨h0, hreg⟩ := hcond
      · exact .inr hwin
      · refine .inl ⟨h0, registerAccess_eq_none ?_⟩
        obtain h | h | h | ⟨hmap, hslot⟩ := hreg
        · exact .inl h
        · exact .inr (.inl h)
        · exact .inr (.inr (.inl h))
        · exact .inr (.inr (.inr (registerAt_eq_none hmap hslot)))
    refine ⟨hostRead_undecoded ha hund, ?_, ?_, ?_⟩ <;> rintro rfl
    · exact hostWrite_undecoded ha hund ((v.setWidth 8).setWidth 32) [v.setWidth 8]
    · exact hostWrite_undecoded ha hund ((v.setWidth 16).setWidth 32) (bytesOfHalf (v.setWidth 16))
    · exact hostWrite_undecoded ha hund v (bytesOfWord v)
  case window =>
    rintro s sp w o _ hs hw ho rfl
    refine ⟨fun hpast width _ => ?_, fun hinert => ?_⟩
    · rw [hostRead_window hs hw ho, readWindow_past_end hpast]
    · have hwrite (width : Width) (v : Word) (bs : List Byte) :
          hostWrite s width (s.config.hostBase + (w * 2 ^ 24 + o)) v bs = .next s := by
        rw [hostWrite_window hs hw ho, hostStored_inert hinert]
      exact ⟨fun b => hwrite .byte (b.setWidth 32) [b], fun _ =>
        ⟨fun v => hwrite .half (v.setWidth 32) (bytesOfHalf v),
          fun v => hwrite .word v (bytesOfWord v)⟩⟩
  case readOnly =>
    intro s a v ha hoff
    exact perform_writeWord_readOnly ha hoff v
  case stores =>
    intro s v
    rw [← BitVec.setWidth_eq_extractLsb' (by decide)]
    exact ⟨perform_writeWord (r := .pktLen) (by decide) rfl rfl,
      perform_writeWord (r := .ia0) (by decide) rfl rfl,
      perform_writeWord (r := .ia1) (by decide) rfl rfl,
      perform_writeWord (r := .ia2) (by decide) rfl rfl,
      perform_writeWord (r := .ia3) (by decide) rfl rfl,
      perform_writeWord (r := .psThresh) (by decide) rfl rfl,
      perform_writeWord (r := .ca0) (by decide) rfl rfl,
      perform_writeWord (r := .ca1) (by decide) rfl rfl⟩

/-- A register read past the slots there are (R61, R102). -/
theorem hostRead_past_slots {s : State} {off : Nat} (ho : off < 0x1000)
    (h : 0x300 + 8 * s.config.nslots ≤ off) :
    hostRead s .word (s.config.hostBase + off) = 0 := by
  have hnone := registerAccess_eq_none (w := .word) (.inr (.inr (.inr (registerAt_past_slots h))))
  exact hostRead_undecoded (by omega) (.inl ⟨by omega, hnone⟩)

/-- Settles O60: the registers by their map, the windows by their bytes. -/
theorem hostSeesBytesBigEndian : Obligations.HostSeesBytesBigEndian := by
  refine ⟨?registers, ?slots, ?windows, ?sizes, ?lanes, ?byte, ?word⟩
  case registers =>
    intro s e he
    rw [registerWords_eq, List.mem_map] at he
    obtain ⟨e', he', rfl⟩ := he
    obtain ⟨-, halign, hlt⟩ := registerMap_lookup e' he'
    exact hostRead_register (by omega) halign (registerAt_of_mem he' s.config)
  case slots =>
    refine fun s k hk => ⟨fun x hn hx => ⟨?_, ?_⟩, fun hn => ⟨?_, ?_⟩⟩
    · rw [hostRead_register (by omega) (by omega) (registerAt_slotInfo hn), readRegister, hx,
        ← slotInfoWord_eq]
      rfl
    · rw [hostRead_register (by omega) (by omega) (registerAt_slotPad hn), readRegister, hx]
      rfl
    · exact hostRead_past_slots (by omega) (by omega)
    · exact hostRead_past_slots (by omega) (by omega)
  case windows => exact fun c w sp hn => windowSpace_eq_some hn w sp
  case sizes =>
    refine fun c => ⟨rfl, rfl, rfl, fun k hk => ?_⟩
    simp only [Space.size, hk, if_true, and_self]
  case lanes =>
    rintro s sp w o _ hs hw ho rfl
    have hbyte (j : Nat) (hj : j < 4) :
        hostRead s .byte (s.config.hostBase + (w * 2 ^ 24 + o) + j) =
          readWindow s sp (o + j) .byte := by
      rw [Nat.add_assoc, Nat.add_assoc]
      exact hostRead_window hs hw (by omega) .byte
    have hbyte0 := hostRead_window hs hw (by omega : o < 2 ^ 24) .byte
    have hword := hostRead_window hs hw (by omega : o < 2 ^ 24) .word
    refine ⟨fun hlt => ?_, ?_, ?_, fun hfits => ?_, fun v => ?_, fun v => ?_⟩
    · rw [hbyte0, readWindow_byte_of_lt hlt]
    · rw [hbyte0, hbyte 1 (by decide), hostRead_window hs hw (by omega), readWindow_half]
    · rw [hbyte0, hbyte 1 (by decide), hbyte 2 (by decide), hbyte 3 (by decide), hword,
        readWindow_word]
    · rw [hword, readWindow_word_of_fits hfits]
    · exact ⟨_, hostWrite_window hs hw (by omega) .half (v.setWidth 32) (bytesOfHalf v),
        byteWrites_window hs hw (show o + 2 ≤ 2 ^ 24 by omega)⟩
    · exact ⟨_, hostWrite_window hs hw (by omega) .word v (bytesOfWord v),
        byteWrites_window hs hw (show o + 4 ≤ 2 ^ 24 by omega)⟩
  case byte =>
    intro s sp o v hsp hlt ho
    obtain ⟨hread, hother⟩ := spaceByte_withBytes s sp o [v]
    have hv : (withBytes s sp o [v]).spaceByte sp o = v := hread 0 (by decide : 0 < 1)
    refine ⟨_, hostWrite_of_writable hsp (bs := [v]) hlt ho .byte (v.setWidth 32), rfl, hv, ?_,
      fun a ha => hother a ?_⟩
    · have hr := hostRead_of_writable (s := withBytes s sp o [v]) hsp ho .byte
      rwa [readWindow_byte_of_lt (s := withBytes s sp o [v]) hlt, hv] at hr
    · rw [List.length_singleton]
      omega
  case word =>
    intro s sp o v hsp hfits ho
    obtain ⟨-, hother⟩ := spaceByte_withBytes s sp o (bytesOfWord v)
    have hv := be32_withBytes s sp o v
    refine ⟨_, hostWrite_of_writable hsp (bs := bytesOfWord v) hfits (by omega) .word v, rfl, hv,
      ?_, hother⟩
    have hr := hostRead_of_writable (s := withBytes s sp o (bytesOfWord v)) hsp
      (by omega : o < 2 ^ 24) .word
    rwa [readWindow_word_of_fits (s := withBytes s sp o (bytesOfWord v)) hfits, hv] at hr

end Sys2Proof.Machine
end

section
/-! SUPPORT. The bits of a command word, what a row of the opcode map says of the decoder and of the
encoder, and the statements about both. -/

namespace Sys2Proof.Machine

open Sys2Proof

/-! ## The fields of a command word (R140) -/

/-- OP, bits [31:24]. -/
def opField (w : Word) : Nat := (w.extractLsb' 24 8).toNat

/-- SP, bits [23:20]. -/
def spField (w : Word) : Nat := (w.extractLsb' 20 4).toNat

/-- SL, bits [19:16]. -/
def slField (w : Word) : Nat := (w.extractLsb' 16 4).toNat

theorem fieldsFit_iff {sp sl : Nat} : fieldsFit sp sl = true ↔ sp < 16 ∧ sl < 16 := by
  rw [fieldsFit, Bool.and_eq_true, decide_eq_true_iff, decide_eq_true_iff]

theorem fieldsFit_fields (w : Word) : fieldsFit (spField w) (slField w) = true :=
  fieldsFit_iff.2 ⟨(w.extractLsb' 20 4).isLt, (w.extractLsb' 16 4).isLt⟩

/-- The value of a word with the given fields: the fields do not overlap. -/
theorem toNat_encodeWord {op sp sl : Nat} (hop : op < 256) (h : fieldsFit sp sl = true) :
    (encodeWord op sp sl).toNat = op * 2 ^ 24 + sp * 2 ^ 20 + sl * 2 ^ 16 := by
  obtain ⟨hsp, hsl⟩ := fieldsFit_iff.1 h
  have hjoin : op <<< 24 ||| sp <<< 20 ||| sl <<< 16 =
      op * 2 ^ 24 + sp * 2 ^ 20 + sl * 2 ^ 16 := by
    rw [Nat.lor_assoc, ← Nat.shiftLeft_add_eq_or_of_lt (by rw [Nat.shiftLeft_eq]; omega) sp,
      ← Nat.shiftLeft_add_eq_or_of_lt (by simp only [Nat.shiftLeft_eq]; omega) op]
    simp only [Nat.shiftLeft_eq]
    omega
  rw [encodeWord, hjoin, BitVec.toNat_ofNat, Nat.mod_eq_of_lt (by omega)]

/-- A word is the encoding of its own fields and of no others, its low 16 bits being 0. -/
theorem eq_encodeWord_iff {w : Word} {op sp sl : Nat} (hop : op < 256)
    (h : fieldsFit sp sl = true) :
    w = encodeWord op sp sl ↔
      opField w = op ∧ spField w = sp ∧ slField w = sl ∧ w.extractLsb' 0 16 = 0#16 := by
  obtain ⟨hsp, hsl⟩ := fieldsFit_iff.1 h
  have hw := w.isLt
  rw [← BitVec.toNat_inj, toNat_encodeWord hop h, ← BitVec.toNat_inj]
  simp only [opField, spField, slField, BitVec.extractLsb'_toNat, Nat.shiftRight_eq_div_pow,
    BitVec.toNat_ofNat]
  omega

/-- Format N's zero bits [23:0] are zero fields and format S's zero bits (R140). -/
theorem low24_eq_zero_iff (w : Word) :
    w.extractLsb' 0 24 = 0#24 ↔
      spField w = 0 ∧ slField w = 0 ∧ w.extractLsb' 0 16 = 0#16 := by
  rw [← BitVec.toNat_inj, ← BitVec.toNat_inj]
  simp only [spField, slField, BitVec.extractLsb'_toNat, Nat.shiftRight_eq_div_pow,
    BitVec.toNat_ofNat]
  omega

/-! ## Matching a row of the opcode map (R152) -/

theorem matchValue_eq_encodeWord (op : Nat) :
    BitVec.ofNat 32 (op * 2 ^ 24) = encodeWord op 0 0 := by
  simp only [encodeWord, Nat.shiftLeft_eq, Nat.zero_mul, Nat.or_zero]

theorem rowS_value (op : Nat) (make : Nat → Nat → Instr) :
    (rowS op make).value = encodeWord op 0 0 := matchValue_eq_encodeWord op

theorem rowN_value (p : Port) (op : Nat) (i : Instr) :
    (rowN p op i).value = encodeWord op 0 0 := matchValue_eq_encodeWord op

/-- The mask of format S keeps OP and the bits that must be 0, and drops SP and SL. -/
theorem rowS_matches_iff {op : Nat} (hop : op < 256) (make : Nat → Nat → Instr) (w : Word) :
    w &&& (rowS op make).mask = (rowS op make).value ↔
      opField w = op ∧ w.extractLsb' 0 16 = 0#16 := by
  have hopMask : opField (w &&& 0xFF00FFFF) = opField w := by
    rw [opField, BitVec.extractLsb'_and]
    exact congrArg BitVec.toNat BitVec.and_allOnes
  have hspMask : spField (w &&& 0xFF00FFFF) = 0 := by
    rw [spField, BitVec.extractLsb'_and]
    exact congrArg BitVec.toNat BitVec.and_zero
  have hslMask : slField (w &&& 0xFF00FFFF) = 0 := by
    rw [slField, BitVec.extractLsb'_and]
    exact congrArg BitVec.toNat BitVec.and_zero
  have hlowMask : (w &&& 0xFF00FFFF).extractLsb' 0 16 = w.extractLsb' 0 16 := by
    rw [BitVec.extractLsb'_and]
    exact BitVec.and_allOnes
  rw [rowS_value, show (rowS op make).mask = 0xFF00FFFF from rfl, eq_encodeWord_iff hop rfl,
    hopMask, hspMask, hslMask, hlowMask]
  simp only [true_and]

/-- The mask of format N keeps every bit. -/
theorem rowN_matches_iff {op : Nat} (hop : op < 256) (p : Port) (i : Instr) (w : Word) :
    w &&& (rowN p op i).mask = (rowN p op i).value ↔
      opField w = op ∧ w.extractLsb' 0 24 = 0#24 := by
  rw [rowN_value, show w &&& (rowN p op i).mask = w from BitVec.and_allOnes,
    eq_encodeWord_iff hop rfl, low24_eq_zero_iff]

/-- The opcode of a row, in its match value. -/
def OpcodeMapRow.opcode (row : OpcodeMapRow) : Nat := opField row.value

theorem opField_encodeWord {op : Nat} (hop : op < 256) : opField (encodeWord op 0 0) = op :=
  ((eq_encodeWord_iff hop rfl).1 rfl).1

theorem rowS_opcode {op : Nat} (hop : op < 256) (make : Nat → Nat → Instr) :
    (rowS op make).opcode = op := by
  rw [OpcodeMapRow.opcode, rowS_value, opField_encodeWord hop]

theorem rowN_opcode {op : Nat} (hop : op < 256) (p : Port) (i : Instr) :
    (rowN p op i).opcode = op := by
  rw [OpcodeMapRow.opcode, rowN_value, opField_encodeWord hop]

/-! ## The two formats (R140) -/

theorem decodeS_eq_ok {w : Word} {make : Nat → Nat → Instr} {i : Instr} :
    decodeS w make = .ok i ↔ w.extractLsb' 0 16 = 0#16 ∧ i = make (spField w) (slField w) := by
  unfold decodeS spField slField
  split <;> simp_all [eq_comm]

theorem decodeN_eq_ok {w : Word} {i j : Instr} :
    decodeN w j = .ok i ↔ w.extractLsb' 0 24 = 0#24 ∧ i = j := by
  unfold decodeN
  split <;> simp_all [eq_comm]

/-- What the decoder and the encoder do with the commands of one row of the opcode map: a word with
the row's opcode is read in the row's format, and a command of the row is encoded in it. -/
inductive RowAgrees : OpcodeMapRow → Prop where
  | formatS {op : Nat} {make : Nat → Nat → Instr} (hop : op < 256)
      (hport : ∀ sp sl, (make sp sl).port = .ingest)
      (hfit : ∀ sp sl, (make sp sl).wellFormed = fieldsFit sp sl)
      (hencode : ∀ sp sl, encode (make sp sl) = encodeWord op sp sl)
      (hdecode : ∀ w, opField w = op → decode w = decodeS w make) : RowAgrees (rowS op make)
  | formatN {p : Port} {op : Nat} {i : Instr} (hop : op < 256) (hport : i.port = p)
      (hfit : i.wellFormed = true) (hencode : encode i = encodeWord op 0 0)
      (hdecode : ∀ w, opField w = op → decode w = decodeN w i) : RowAgrees (rowN p op i)

section
variable {row : OpcodeMapRow} {w : Word}

theorem RowAgrees.port (h : RowAgrees row) (sp sl : Nat) : (row.make sp sl).port = row.port := by
  cases h with
  | formatS _ hport => exact hport sp sl
  | formatN _ hport => exact hport

theorem RowAgrees.opField_eq_opcode (h : RowAgrees row) (hm : w &&& row.mask = row.value) :
    opField w = row.opcode := by
  cases h with
  | formatS hop => rw [rowS_opcode hop, ((rowS_matches_iff hop _ w).1 hm).1]
  | formatN hop => rw [rowN_opcode hop, ((rowN_matches_iff hop _ _ w).1 hm).1]

/-- A word with a row's opcode is legal exactly when it matches the row. -/
theorem RowAgrees.decode_eq_ok (h : RowAgrees row) (hw : opField w = row.opcode) {i : Instr} :
    decode w = .ok i ↔ w &&& row.mask = row.value ∧ i = row.make (spField w) (slField w) := by
  cases h with
  | formatS hop _ _ _ hdecode =>
    rw [rowS_opcode hop] at hw
    rw [hdecode w hw, decodeS_eq_ok, rowS_matches_iff hop, and_iff_right hw]
    rfl
  | formatN hop _ _ _ hdecode =>
    rw [rowN_opcode hop] at hw
    rw [hdecode w hw, decodeN_eq_ok, rowN_matches_iff hop, and_iff_right hw]
    rfl

/-- A word that matches a row is the encoding of the row's command with the word's fields. -/
theorem RowAgrees.encode_of_matches (h : RowAgrees row) (hm : w &&& row.mask = row.value) :
    (row.make (spField w) (slField w)).wellFormed = true ∧
      encode (row.make (spField w) (slField w)) = w := by
  cases h with
  | formatS hop _ hfit hencode =>
    obtain ⟨hw, hlow⟩ := (rowS_matches_iff hop _ w).1 hm
    have hfields := fieldsFit_fields w
    exact ⟨(hfit _ _).trans hfields, (hencode _ _).trans
      ((eq_encodeWord_iff hop hfields).2 ⟨hw, rfl, rfl, hlow⟩).symm⟩
  | formatN hop _ hfit hencode =>
    obtain ⟨hw, hlow⟩ := (rowN_matches_iff hop _ _ w).1 hm
    exact ⟨hfit, hencode.trans
      ((eq_encodeWord_iff hop rfl).2 ⟨hw, (low24_eq_zero_iff w).1 hlow⟩).symm⟩

/-- The encoding of a well-formed command of a row matches the row and keeps the command's
fields. -/
theorem RowAgrees.matches_of_encode (h : RowAgrees row) {sp sl : Nat}
    (hwf : (row.make sp sl).wellFormed = true) (hw : encode (row.make sp sl) = w) :
    w &&& row.mask = row.value ∧ row.make sp sl = row.make (spField w) (slField w) := by
  cases h with
  | formatS hop _ hfit hencode =>
    obtain ⟨hopw, rfl, rfl, hlow⟩ :=
      (eq_encodeWord_iff hop ((hfit sp sl).symm.trans hwf)).1 (hw.symm.trans (hencode sp sl))
    exact ⟨(rowS_matches_iff hop _ w).2 ⟨hopw, hlow⟩, rfl⟩
  | formatN hop _ _ hencode =>
    obtain ⟨hopw, hlow⟩ := (eq_encodeWord_iff hop rfl).1 (hw.symm.trans hencode)
    exact ⟨(rowN_matches_iff hop _ _ w).2 ⟨hopw, (low24_eq_zero_iff w).2 hlow⟩, rfl⟩

end

/-! ## The opcode map (R152) -/

/-- The decoder, the encoder and the ports agree with every row of the map. -/
theorem opcodeMap_agrees : ∀ row ∈ opcodeMap, RowAgrees row := by
  intro row hrow
  fin_cases hrow
  all_goals
    constructor
    case hop => decide
    case hport => intros; rfl
    case hfit => intros; rfl
    case hencode => intros; rfl
    case hdecode =>
      intro w hw
      unfold decode
      rw [← opField, hw]
      rfl

/-- Every command is a row's. -/
theorem exists_row_of_instr (i : Instr) : ∃ row ∈ opcodeMap, ∃ sp sl, row.make sp sl = i := by
  simp only [opcodeMap, List.exists_mem_cons_iff, rowS, rowN, exists_const]
  cases i <;> simp

/-- The decoder knows no opcode that the map leaves out. -/
theorem decode_of_no_row {w : Word} (h : ∀ row ∈ opcodeMap, opField w ≠ row.opcode) :
    decode w = .error .unknownOpcode := by
  have hne : ∀ op ∈ opcodeMap.map OpcodeMapRow.opcode, opField w ≠ op := by
    simpa only [List.forall_mem_map] using h
  unfold decode
  split
  case h_18 => rfl
  all_goals next hop => exact absurd hop (hne _ (by decide))

/-- The legal words, whichever the port, are those that match a row of the map. -/
theorem decode_eq_ok_iff_row {w : Word} {i : Instr} :
    decode w = .ok i ↔ ∃ row ∈ opcodeMap, w &&& row.mask = row.value ∧
      i = row.make (spField w) (slField w) := by
  constructor
  case mp =>
    intro hd
    by_cases hrow : ∃ row ∈ opcodeMap, opField w = row.opcode
    · obtain ⟨row, hmem, hop⟩ := hrow
      exact ⟨row, hmem, ((opcodeMap_agrees row hmem).decode_eq_ok hop).1 hd⟩
    · push Not at hrow
      rw [decode_of_no_row hrow] at hd
      cases hd
  case mpr =>
    rintro ⟨row, hmem, hmatch, hi⟩
    have hrow := opcodeMap_agrees row hmem
    exact (hrow.decode_eq_ok (hrow.opField_eq_opcode hmatch)).2 ⟨hmatch, hi⟩

theorem decode_encode {i : Instr} (h : i.wellFormed = true) : decode (encode i) = .ok i := by
  obtain ⟨row, hmem, sp, sl, rfl⟩ := exists_row_of_instr i
  exact decode_eq_ok_iff_row.2 ⟨row, hmem, (opcodeMap_agrees row hmem).matches_of_encode h rfl⟩

/-- Settles O1: the encoding of a command matches the command's row of the opcode map and keeps its
fields. -/
theorem decodeEncodeAgree : Obligations.DecodeEncodeAgree :=
  fun _ h => ⟨decode_encode h, decodeOn_eq_ok.2 ⟨decode_encode h, rfl⟩⟩

/-- Settles O2: a legal word matches a row of the opcode map, and a row leaves no bit of the word
open but the fields it makes the command of. -/
theorem encodeDecodeAgree : Obligations.EncodeDecodeAgree := by
  intro w i hd
  obtain ⟨row, hmem, hmatch, rfl⟩ := decode_eq_ok_iff_row.1 hd
  exact (opcodeMap_agrees row hmem).encode_of_matches hmatch

/-- Settles O3: a row's command belongs to the row's port. -/
theorem legalWordsAreTheOpcodeMap : Obligations.LegalWordsAreTheOpcodeMap := by
  intro p w i
  rw [decodeOn_eq_ok, decode_eq_ok_iff_row]
  constructor
  case mp =>
    rintro ⟨⟨row, hmem, hmatch, rfl⟩, hport⟩
    exact ⟨row, hmem, ((opcodeMap_agrees row hmem).port _ _).symm.trans hport, hmatch, rfl⟩
  case mpr =>
    rintro ⟨row, hmem, hport, hmatch, rfl⟩
    exact ⟨⟨row, hmem, hmatch, rfl⟩, ((opcodeMap_agrees row hmem).port _ _).trans hport⟩

/-- Settles O4: each word decoded. -/
theorem decodesSpecWords : Obligations.DecodesSpecWords := by
  unfold Obligations.DecodesSpecWords
  decide

/-! ## Issuing an illegal word (R153) -/

/-- A word that matches no row of a port is refused there. -/
theorem decodeOn_of_illegalOn {p : Port} {w : Word} (h : illegalOn p w) :
    ∃ r, decodeOn p w = .error r := by
  cases hd : decodeOn p w with
  | error r => exact ⟨r, rfl⟩
  | ok i =>
    obtain ⟨row, hmem, hport, hmatch, -⟩ := (legalWordsAreTheOpcodeMap p w i).1 hd
    exact absurd hmatch (h row hmem hport)

theorem writeIcmd_of_illegalOn {s : State} {w : Word} (hb : s.ing.stat.busy = false)
    (h : illegalOn .ingest w) :
    writeIcmd s w =
      .next (completeIngest { s with ing := { s.ing with cmd := w } } .illegal {}) := by
  obtain ⟨r, hd⟩ := decodeOn_of_illegalOn h
  simp only [writeIcmd, hb, issueIngest, hd, Bool.false_eq_true, if_false]

theorem writeCcmd_of_illegalOn {s : State} {w : Word} (hb : s.con.stat.busy = false)
    (h : illegalOn .consumer w) :
    writeCcmd s w =
      .next (completeConsumer { s with con := { s.con with cmd := w } } .illegal) := by
  obtain ⟨r, hd⟩ := decodeOn_of_illegalOn h
  simp only [writeCcmd, hb, issueConsumer, hd, Bool.false_eq_true, if_false]

/-- Settles O6: the step is the write, and the illegal word it stores completes its port's
command. -/
theorem illegalWordCompletes : Obligations.IllegalWordCompletes := by
  refine ⟨?ingest, ?consumer⟩
  case ingest =>
    intro s w hw hturn hnext hb hill
    rw [step_of_write_icmd hw hturn hnext, writeIcmd_of_illegalOn (by rwa [takeMove_ing]) hill,
      takeMove_ing]
    rfl
  case consumer =>
    intro s w hw hturn hnext hb hill
    rw [step_of_write_ccmd hw hturn hnext, writeCcmd_of_illegalOn (by rwa [takeMove_con]) hill,
      takeMove_con]
    rfl

end Sys2Proof.Machine
end

section
/-! SUPPORT. A 10-bit word as the bits of its two bytes (R146, R200), and where the words of a group
of five bytes lie. -/

namespace Sys2Proof.Machine

open Sys2Proof

/-! ## The word in its two bytes (R200) -/

theorem getWord_eq_extractLsb' (s : State) (sp : Space) (i : Nat) :
    getWord s sp i = (be16 s sp (wordByte i)).extractLsb' (laneShift (i % 4)) 10 :=
  BitVec.eq_of_toNat_eq (by
    rw [getWord, BitVec.toNat_setWidth, BitVec.toNat_ushiftRight, BitVec.extractLsb'_toNat])

theorem laneShift_eq : ∀ j < 4, laneShift j = 6 - 2 * j := by decide

/-- The word of lane `j` of group `g`: ten bits of the bytes `j` and `j + 1` of the group. -/
theorem getWord_lane (s : State) (sp : Space) (g : Nat) {j : Nat} (hj : j < 4) :
    getWord s sp (4 * g + j) =
      (s.spaceByte sp (5 * g + j) ++ s.spaceByte sp (5 * g + j + 1)).extractLsb'
        (6 - 2 * j) 10 := by
  have hbyte : wordByte (4 * g + j) = 5 * g + j := by
    unfold wordByte
    omega
  have hlane : (4 * g + j) % 4 = j := by omega
  rw [getWord_eq_extractLsb', hbyte, hlane, laneShift_eq j hj, be16]

/-! ## The parts of a word (R146) -/

theorem extractLsb'_extractLsb' {m : Nat} (x : BitVec m) {p k n l : Nat} (h : k + n ≤ l) :
    (x.extractLsb' p l).extractLsb' k n = x.extractLsb' (p + k) n := by
  ext b hb
  simp only [BitVec.getElem_extractLsb', BitVec.getLsbD_extractLsb', Nat.add_assoc]
  rw [decide_eq_true (by omega : k + b < l), Bool.true_and]

/-- High bits of a word are bits of its first byte. -/
theorem extract_of_firstByte (x y : Byte) {p k n : Nat} (hword : k + n ≤ 10) (hbyte : 8 ≤ p + k) :
    ((x ++ y).extractLsb' p 10).extractLsb' k n = x.extractLsb' (p + k - 8) n := by
  rw [extractLsb'_extractLsb' _ hword, BitVec.extractLsb'_append_eq_of_le hbyte]

/-- Low bits of a word are bits of its second byte. -/
theorem extract_of_secondByte (x y : Byte) {p k n : Nat} (hword : k + n ≤ 10)
    (hbyte : p + k + n ≤ 8) :
    ((x ++ y).extractLsb' p 10).extractLsb' k n = y.extractLsb' (p + k) n := by
  rw [extractLsb'_extractLsb' _ hword, BitVec.extractLsb'_append_eq_of_add_le hbyte]

/-- A byte is its high bits followed by its low bits. -/
theorem byte_eq_parts (x : Byte) :
    x = x.extractLsb' 6 2 ++ x.extractLsb' 0 6 ∧ x = x.extractLsb' 4 4 ++ x.extractLsb' 0 4 ∧
      x = x.extractLsb' 2 6 ++ x.extractLsb' 0 2 := by
  refine ⟨?_, ?_, ?_⟩
  all_goals
    rw [BitVec.extractLsb'_append_extractLsb'_eq_extractLsb' (by decide)]
    exact BitVec.extractLsb'_eq_self.symm

/-- Settles O26: each byte of a group, cut where a word ends, is the low bits of one word and the
high bits of the next. -/
theorem wordLayout : Obligations.WordLayout := by
  intro s sp g
  have hword0 := getWord_lane s sp g (j := 0) (by decide)
  simp only [Nat.add_zero] at hword0
  rw [hword0, getWord_lane s sp g (j := 1) (by decide), getWord_lane s sp g (j := 2) (by decide),
    getWord_lane s sp g (j := 3) (by decide)]
  obtain ⟨hbyte1, -, -⟩ := byte_eq_parts (s.spaceByte sp (5 * g + 1))
  obtain ⟨-, hbyte2, -⟩ := byte_eq_parts (s.spaceByte sp (5 * g + 2))
  obtain ⟨-, -, hbyte3⟩ := byte_eq_parts (s.spaceByte sp (5 * g + 3))
  refine ⟨?byte0, ?byte1, ?byte2, ?byte3, ?byte4⟩
  case byte0 =>
    rw [extract_of_firstByte _ _ (by decide) (by decide)]
    exact BitVec.extractLsb'_eq_self.symm
  case byte1 =>
    rw [extract_of_secondByte _ _ (by decide) (by decide),
      extract_of_firstByte _ _ (by decide) (by decide)]
    exact hbyte1
  case byte2 =>
    rw [extract_of_secondByte _ _ (by decide) (by decide),
      extract_of_firstByte _ _ (by decide) (by decide)]
    exact hbyte2
  case byte3 =>
    rw [extract_of_secondByte _ _ (by decide) (by decide),
      extract_of_firstByte _ _ (by decide) (by decide)]
    exact hbyte3
  case byte4 =>
    rw [extract_of_secondByte _ _ (by decide) (by decide)]
    exact BitVec.extractLsb'_eq_self.symm

end Sys2Proof.Machine
end

section
/-! SUPPORT. A space as a stream of bits, most significant bit of each byte first: word `i` is the
ten bits from `10 * i` (R146), so that what SetWord writes and what it leaves is a matter of
positions (R202). W10GET and W10SET (R210, R211) follow. -/

namespace Sys2Proof.Machine

open Sys2Proof

/-! ## A space as a stream of bits (R146) -/

/-- Bit `p` of a space, counted from the most significant bit of byte 0. -/
def State.spaceBit (s : State) (sp : Space) (p : Nat) : Bool :=
  (s.spaceByte sp (p / 8)).getLsbD (7 - p % 8)

theorem getLsbD_spaceByte (s : State) (sp : Space) (o : Nat) {b : Nat} (hb : b < 8) :
    (s.spaceByte sp o).getLsbD b = s.spaceBit sp (8 * o + 7 - b) := by
  have hbyte : (8 * o + 7 - b) / 8 = o := by omega
  have hbit : 7 - (8 * o + 7 - b) % 8 = b := by omega
  rw [State.spaceBit, hbyte, hbit]

theorem spaceByte_eq_of_spaceBit_eq {s t : State} {sp : Space}
    (h : ∀ p, t.spaceBit sp p = s.spaceBit sp p) (o : Nat) :
    t.spaceByte sp o = s.spaceByte sp o :=
  BitVec.eq_of_getLsbD_eq fun b hb => by
    rw [getLsbD_spaceByte t sp o hb, getLsbD_spaceByte s sp o hb, h]

theorem getLsbD_be16 (s : State) (sp : Space) (o : Nat) {k : Nat} (hk : k < 16) :
    (be16 s sp o).getLsbD k = s.spaceBit sp (8 * o + 15 - k) := by
  rw [be16, BitVec.getLsbD_append]
  split
  case isTrue hlow =>
    rw [getLsbD_spaceByte s sp (o + 1) hlow]
    congr 1
  case isFalse hhigh =>
    rw [getLsbD_spaceByte s sp o (by omega)]
    congr 1
    omega

/-- Word `i` begins two bits further into its first byte with each lane (R146). -/
theorem wordByte_bits (i : Nat) : 8 * wordByte i + 2 * (i % 4) = 10 * i := by
  unfold wordByte
  omega

theorem laneShift_mod (i : Nat) : laneShift (i % 4) = 6 - 2 * (i % 4) :=
  laneShift_eq _ (Nat.mod_lt _ (by decide))

/-- The words are consecutive fields of ten bits, most significant bit first (R146). -/
theorem getLsbD_getWord (s : State) (sp : Space) (i : Nat) {b : Nat} (hb : b < 10) :
    (getWord s sp i).getLsbD b = s.spaceBit sp (10 * i + 9 - b) := by
  have hpos := wordByte_bits i
  rw [getWord_eq_extractLsb', BitVec.getLsbD_extractLsb', decide_eq_true hb, Bool.true_and,
    laneShift_mod, getLsbD_be16 s sp _ (by omega)]
  congr 1
  omega

/-! ## SetWord over the stream (R201) -/

theorem getLsbD_laneMask :
    ∀ lane < 4, ∀ k < 16, (laneMask lane).getLsbD k =
      decide (6 - 2 * lane ≤ k ∧ k < 6 - 2 * lane + 10) := by decide

/-- The merge puts the value into the lane's ten bits and keeps the other six (R201). -/
theorem getLsbD_mergeWord {lane k : Nat} (hlane : lane < 4) (hk : k < 16) (old : BitVec 16)
    (v : BitVec 10) :
    (mergeWord lane old v).getLsbD k =
      if 6 - 2 * lane ≤ k ∧ k < 6 - 2 * lane + 10 then v.getLsbD (k - (6 - 2 * lane))
      else old.getLsbD k := by
  rw [mergeWord, BitVec.getLsbD_or, BitVec.getLsbD_and, BitVec.getLsbD_and, BitVec.getLsbD_not,
    BitVec.getLsbD_shiftLeft, BitVec.getLsbD_setWidth, getLsbD_laneMask lane hlane k hk,
    laneShift_eq lane hlane]
  split
  case isTrue hin =>
    have hbit : k - (6 - 2 * lane) < 16 := by omega
    rw [decide_eq_true hin]
    simp [hin, hk, hbit]
  case isFalse hout =>
    rw [decide_eq_false hout]
    simp [hk]

/-- The two bytes SetWord stores hold the merged bits. -/
theorem spaceBit_setWord_of_touched {s : State} {sp : Space} {i p : Nat} (v : BitVec 10)
    (hlo : 8 * wordByte i ≤ p) (hhi : p < 8 * wordByte i + 16) :
    (setWord s sp i v).spaceBit sp p =
      (mergeWord (i % 4) (be16 s sp (wordByte i)) v).getLsbD (8 * wordByte i + 15 - p) := by
  rw [State.spaceBit, State.spaceByte, byteAt_setWord]
  by_cases hsecond : p / 8 = wordByte i + 1
  · rw [if_pos (by omega), BitVec.getLsbD_extractLsb', decide_eq_true (by omega), Bool.true_and]
    congr 1
    omega
  · rw [if_neg (by omega), if_pos (by omega), BitVec.getLsbD_extractLsb',
      decide_eq_true (by omega), Bool.true_and]
    congr 1
    omega

/-- Every byte but the word's two keeps its value (R202). -/
theorem byteAt_setWord_of_ne {s : State} {sp : Space} {i a : Nat} (v : BitVec 10)
    (hfirst : a ≠ sp.base + wordByte i) (hsecond : a ≠ sp.base + (wordByte i + 1)) :
    (setWord s sp i v).byteAt a = s.byteAt a := by
  rw [byteAt_setWord, if_neg (by omega), if_neg hfirst]

/-- SetWord writes exactly the ten bits of its word. -/
theorem spaceBit_setWord (s : State) (sp : Space) (i p : Nat) (v : BitVec 10) :
    (setWord s sp i v).spaceBit sp p =
      if 10 * i ≤ p ∧ p < 10 * i + 10 then v.getLsbD (10 * i + 9 - p) else s.spaceBit sp p := by
  have hpos := wordByte_bits i
  have hlane : i % 4 < 4 := Nat.mod_lt _ (by decide)
  by_cases htouched : 8 * wordByte i ≤ p ∧ p < 8 * wordByte i + 16
  · obtain ⟨hlo, hhi⟩ := htouched
    rw [spaceBit_setWord_of_touched v hlo hhi, getLsbD_mergeWord hlane (by omega),
      getLsbD_be16 s sp _ (by omega)]
    split
    case isTrue hin =>
      rw [if_pos (by omega)]
      congr 1
      omega
    case isFalse hout =>
      rw [if_neg (by omega)]
      congr 1
      omega
  · rw [if_neg (by omega), State.spaceBit, State.spaceBit, State.spaceByte,
      byteAt_setWord_of_ne v (by omega) (by omega), State.spaceByte]

/-! ## The laws of GetWord and SetWord (R202) -/

theorem getWord_setWord_self (s : State) (sp : Space) (i : Nat) (v : BitVec 10) :
    getWord (setWord s sp i v) sp i = v :=
  BitVec.eq_of_getLsbD_eq fun b hb => by
    rw [getLsbD_getWord _ sp i hb, spaceBit_setWord, if_pos (by omega)]
    congr 1
    omega

theorem getWord_setWord_of_ne (s : State) (sp : Space) {i j : Nat} (h : j ≠ i) (v : BitVec 10) :
    getWord (setWord s sp i v) sp j = getWord s sp j :=
  BitVec.eq_of_getLsbD_eq fun b hb => by
    rw [getLsbD_getWord _ sp j hb, spaceBit_setWord, if_neg (by omega), getLsbD_getWord s sp j hb]

theorem spaceBit_setWord_getWord (s : State) (sp : Space) (i p : Nat) :
    (setWord s sp i (getWord s sp i)).spaceBit sp p = s.spaceBit sp p := by
  rw [spaceBit_setWord]
  split
  case isTrue hin =>
    rw [getLsbD_getWord s sp i (by omega)]
    congr 1
    omega
  case isFalse => rfl

theorem byteAt_setWord_getWord (s : State) (sp : Space) (i a : Nat) :
    (setWord s sp i (getWord s sp i)).byteAt a = s.byteAt a := by
  have hbytes := spaceByte_eq_of_spaceBit_eq (spaceBit_setWord_getWord s sp i)
  by_cases hfirst : a = sp.base + wordByte i
  · exact hfirst ▸ hbytes (wordByte i)
  · by_cases hsecond : a = sp.base + (wordByte i + 1)
    · exact hsecond ▸ hbytes (wordByte i + 1)
    · exact byteAt_setWord_of_ne _ hfirst hsecond

/-- Settles O27: SetWord writes the ten bits of its word, and no two words share a bit. -/
theorem setWordLaws : Obligations.SetWordLaws := fun s sp i v =>
  ⟨getWord_setWord_self s sp i v, fun _ h => getWord_setWord_of_ne s sp h v,
    fun _ hfirst hsecond => byteAt_setWord_of_ne v hfirst hsecond, byteAt_setWord_getWord s sp i⟩

/-! ## W10GET (R210) -/

/-- A word out of the space's bounds, computed without wrapping (R210). -/
theorem wordFits_eq_false_iff (c : Config) (sp : Space) (i : Nat) :
    wordFits c sp i = false ↔ sp.size c ≤ wordByte i + 1 := by
  simp [wordFits]

theorem w10getBody_of_noSpace {s : State} {sp sl : Nat} (h : spaceOf s.config sp sl = none) :
    w10getBody sp sl s = .done s .badArg {} := by
  simp only [w10getBody, h]

theorem w10getBody_of_outOfBounds {s : State} {sp sl : Nat} {space : Space}
    (hspace : spaceOf s.config sp sl = some space)
    (hout : space.size s.config ≤ wordByte s.ing.ia0.toNat + 1) :
    w10getBody sp sl s = .done s .badArg {} := by
  simp only [w10getBody, hspace, (wordFits_eq_false_iff ..).2 hout, Bool.false_eq_true, if_false]

theorem w10getBody_of_inBounds {s : State} {sp sl : Nat} {space : Space}
    (hspace : spaceOf s.config sp sl = some space)
    (hin : wordByte s.ing.ia0.toNat + 1 < space.size s.config) :
    w10getBody sp sl s =
      .done { s with ing.ir0 := (getWord s space s.ing.ia0.toNat).setWidth 32 } .ok {} := by
  simp only [w10getBody, hspace, (wordFits_iff ..).2 hin, if_true]

/-- Settles O28: R148's map, and the two ways W10GET completes. -/
theorem w10getReadsTheWord : Obligations.W10getReadsTheWord := by
  refine ⟨fun c sp sl space => spaceOf_eq_some, fun s sp sl hfatal => ?_⟩
  rw [exec_of_ingest rfl]
  refine ⟨?noSpace, ?space⟩
  case noSpace =>
    intro hbad
    exact runIngest_of_done hfatal (w10getBody_of_noSpace (spaceOf_eq_none.2 hbad))
  case space =>
    intro space hspace
    split
    case isTrue hout => exact runIngest_of_done hfatal (w10getBody_of_outOfBounds hspace hout)
    case isFalse hin =>
      exact runIngest_of_done hfatal (w10getBody_of_inBounds hspace (Nat.not_le.1 hin))

/-! ## W10SET (R211) -/

/-- Only PKT and WORK are writable (R211). -/
theorem spaceOf_writable_iff {c : Config} {sp sl : Nat} {space : Space} :
    spaceOf c sp sl = some space ∧ w10Writable space = true ↔
      (sp = 0 ∧ space = .pkt) ∨ (sp = 1 ∧ space = .work) := by
  rw [spaceOf_eq_some]
  cases space <;> simp [w10Writable]

/-- W10SET stores where the space, the value and the index all pass. -/
theorem w10setBody_of_passes {s : State} {sp sl : Nat} {space : Space}
    (hspace : spaceOf s.config sp sl = some space) (hwrite : w10Writable space = true)
    (hvalue : s.ing.ia1.toNat ≤ 1023)
    (hin : wordByte s.ing.ia0.toNat + 1 < space.size s.config) :
    w10setBody sp sl s =
      .done (setWord s space s.ing.ia0.toNat (s.ing.ia1.setWidth 10)) .ok {} := by
  simp only [w10setBody, hspace, hwrite, Bool.true_eq_false, if_false, Nat.not_lt.2 hvalue,
    (wordFits_iff ..).2 hin, if_true]

/-- W10SET completes with BADARG where one of the space, the value and the index fails. -/
theorem w10setBody_of_fails {s : State} {sp sl : Nat}
    (h : ∀ space, spaceOf s.config sp sl = some space → w10Writable space = true →
      s.ing.ia1.toNat ≤ 1023 → space.size s.config ≤ wordByte s.ing.ia0.toNat + 1) :
    w10setBody sp sl s = .done s .badArg {} := by
  unfold w10setBody
  cases hspace : spaceOf s.config sp sl with
  | none => rfl
  | some space =>
    dsimp only
    split
    case isTrue => rfl
    case isFalse hwrite =>
      split
      case isTrue => rfl
      case isFalse hvalue =>
        have hout := h space hspace (eq_true_of_ne_false hwrite) (Nat.not_lt.1 hvalue)
        simp only [(wordFits_eq_false_iff ..).2 hout, Bool.false_eq_true, if_false]

/-- Settles O29: the three checks of R211, and the laws of SetWord for the word it stores. -/
theorem w10setWritesTheWord : Obligations.W10setWritesTheWord := by
  intro s sp sl hfatal
  rw [exec_of_ingest rfl]
  refine ⟨?badOperand, fun hvalue space hnamed => ⟨?outOfBounds, ?stored⟩⟩
  case badOperand =>
    intro hbad
    refine runIngest_of_done hfatal (w10setBody_of_fails fun space hspace hwrite hvalue => ?_)
    have hsp := spaceOf_writable_iff.1 ⟨hspace, hwrite⟩
    omega
  case outOfBounds =>
    intro hout
    obtain ⟨hspace, -⟩ := spaceOf_writable_iff (c := s.config) (sl := sl).2 hnamed
    refine runIngest_of_done hfatal (w10setBody_of_fails fun space' hspace' _ _ => ?_)
    cases hspace.symm.trans hspace'
    exact hout
  case stored =>
    intro hin
    obtain ⟨hspace, hwrite⟩ := spaceOf_writable_iff (c := s.config) (sl := sl).2 hnamed
    exact ⟨_, runIngest_of_done hfatal (w10setBody_of_passes hspace hwrite hvalue hin), rfl,
      getWord_setWord_self s space _ _, fun _ hne => getWord_setWord_of_ne s space hne _,
      fun _ hfirst hsecond => byteAt_setWord_of_ne _ hfirst hsecond⟩

end Sys2Proof.Machine
end

section
/-! SUPPORT. The RTP header as its bits (R220), and the three ways RTPPARSE completes (R222). -/

namespace Sys2Proof.Machine

open Sys2Proof

/-! ## The RTP header (R220, R221) -/

theorem setWidth_extractLsb'_one {n : Nat} (x : BitVec n) (i : Nat) :
    (x.extractLsb' i 1).setWidth 32 = if x.getLsbD i then 1 else 0 := by
  have hbit : x.extractLsb' i 1 = BitVec.ofBool (x.getLsbD i) := by
    ext j hj
    obtain rfl : j = 0 := by omega
    simp
  rw [hbit]
  cases x.getLsbD i <;> rfl

/-- The fields RTPPARSE takes from a packet of at least 12 bytes. -/
theorem parseRtp_of_le {s : State} {sp : Space} {n : Nat} (h : 12 ≤ n) :
    ∃ v, parseRtp s sp n = some v ∧ v.marker = (s.spaceByte sp 1).extractLsb' 7 1 ∧
      v.timestamp = be32 s sp 4 ∧ v.ssrc = be32 s sp 8 := by
  rw [parseRtp, if_neg (Nat.not_lt.2 h)]
  exact ⟨_, rfl, rfl, rfl, rfl⟩

/-- IR0 reads the M bit as a number (R222). -/
theorem markerBit_setWidth (s : State) :
    ((s.spaceByte .pkt 1).extractLsb' 7 1).setWidth 32 = if pktMarker s then 1 else 0 :=
  setWidth_extractLsb'_one _ _

/-! ## RTPPARSE (R222) -/

theorem packetLength_of_le {s : State} (h : pktLength s ≤ s.config.maxPktBytes) :
    packetLength s = some (pktLength s) :=
  packetLength_eq_some.2 ⟨rfl, h⟩

theorem rtpparseBody_of_tooLong {s : State} (h : s.config.maxPktBytes < pktLength s) :
    rtpparseBody s = .done s .badArg {} := by
  simp only [rtpparseBody, packetLength_eq_none.2 h]

theorem rtpparseBody_of_tooShort {s : State} (hmax : pktLength s ≤ s.config.maxPktBytes)
    (h : pktLength s < 12) : rtpparseBody s = .done s .malformed {} := by
  simp only [rtpparseBody, packetLength_of_le hmax, parseRtp_eq_none.2 h]

theorem rtpparseBody_of_header {s : State} (hmax : pktLength s ≤ s.config.maxPktBytes)
    (h : 12 ≤ pktLength s) :
    rtpparseBody s =
      .done
        { s with
          hdr.rtpHdr := be32 s .pkt 0, hdr.rtpTs := be32 s .pkt 4, hdr.rtpSsrc := be32 s .pkt 8
          ing.ir0 := if pktMarker s then 1 else 0 }
        .ok {} := by
  obtain ⟨v, hparse, hmarker, hts, hssrc⟩ := parseRtp_of_le (s := s) (sp := .pkt) h
  simp only [rtpparseBody, packetLength_of_le hmax, hparse, hmarker, hts, hssrc,
    markerBit_setWidth]

/-- Settles O30: RTPPARSE never holds or stops, so each of its three ends is a completion. -/
theorem rtpparseLoadsTheHeader : Obligations.RtpparseLoadsTheHeader := by
  intro s hfatal
  rw [exec_of_ingest rfl]
  split
  case isTrue hlong => exact runIngest_of_done hfatal (rtpparseBody_of_tooLong hlong)
  case isFalse hmax =>
    have hmax := Nat.not_lt.1 hmax
    split
    case isTrue hshort => exact runIngest_of_done hfatal (rtpparseBody_of_tooShort hmax hshort)
    case isFalse hheader =>
      exact runIngest_of_done hfatal (rtpparseBody_of_header hmax (Nat.not_lt.1 hheader))

end Sys2Proof.Machine
end

section
/-! SUPPORT. The HBRMT header of the packet in PKT (R241, R242) and the four ways HBRMTDEC completes
(R243), the resolver lookup by lookup (R251 to R253), and what PROFRES reports of it (R255). -/

namespace Sys2Proof.Machine

open Sys2Proof

/-! ## HBRMTDEC (R243) -/

/-- The header length of R241, over the bits of R142. -/
theorem headerLength_decodeHbrmt (s : State) :
    headerLength (decodeHbrmt s .pkt 12) = pktHeaderLength s := rfl

/-- The header registers once HBRMTDEC has shown the fixed words and the header length (R243). -/
def shownHeader (s : State) : HeaderRegs :=
  { s.hdr with
    hbW0 := be32 s .pkt 12, hbW1 := be32 s .pkt 16
    hbTs :=
      if (be32 s .pkt 12).extractLsb' 5 4 ≠ 0 ∧ 24 ≤ pktLength s then be32 s .pkt 20 else 0
    hbHdrLen := BitVec.ofNat 16 (pktHeaderLength s) }

theorem hbrmtdecBody_of_tooLong {s : State} (h : s.config.maxPktBytes < pktLength s) :
    hbrmtdecBody s = .done s .badArg {} := by
  simp only [hbrmtdecBody, packetLength_eq_none.2 h]

theorem hbrmtdecBody_of_noFixedWords {s : State} (hmax : pktLength s ≤ s.config.maxPktBytes)
    (h : pktLength s < 20) : hbrmtdecBody s = .done s .malformed {} := by
  simp only [hbrmtdecBody, packetLength_of_le hmax, h, if_true]

theorem hbrmtdecBody_of_cutHeader {s : State} (hmax : pktLength s ≤ s.config.maxPktBytes)
    (hfixed : 20 ≤ pktLength s) (h : pktLength s < 12 + pktHeaderLength s) :
    hbrmtdecBody s =
      .done { s with hdr := { shownHeader s with hbPayLen := 0 } } .malformed {} := by
  simp only [hbrmtdecBody, packetLength_of_le hmax, Nat.not_lt.2 hfixed,
    headerLength_decodeHbrmt, h, if_true, if_false]
  rfl

theorem hbrmtdecBody_of_header {s : State} (hmax : pktLength s ≤ s.config.maxPktBytes)
    (hfixed : 20 ≤ pktLength s) (h : 12 + pktHeaderLength s ≤ pktLength s) :
    hbrmtdecBody s =
      .done
        { s with
          hdr :=
            { shownHeader s with
              hbPayLen := BitVec.ofNat 16 (pktLength s - 12 - pktHeaderLength s) }
          ing.ir0 := ((be32 s .pkt 12).extractLsb' 16 8).setWidth 32 }
        .ok {} := by
  simp only [hbrmtdecBody, packetLength_of_le hmax, Nat.not_lt.2 hfixed,
    headerLength_decodeHbrmt, Nat.not_lt.2 h, if_false]
  rfl

/-- Settles O31: HBRMTDEC never holds or stops, so each of its four ends is a completion. -/
theorem hbrmtdecDecodesTheHeader : Obligations.HbrmtdecDecodesTheHeader := by
  intro s hfatal
  rw [exec_of_ingest rfl]
  split
  case isTrue hlong => exact runIngest_of_done hfatal (hbrmtdecBody_of_tooLong hlong)
  case isFalse hmax =>
    have hmax := Nat.not_lt.1 hmax
    split
    case isTrue hshort => exact runIngest_of_done hfatal (hbrmtdecBody_of_noFixedWords hmax hshort)
    case isFalse hfixed =>
      have hfixed := Nat.not_lt.1 hfixed
      split
      case isTrue hcut =>
        exact runIngest_of_done hfatal (hbrmtdecBody_of_cutHeader hmax hfixed hcut)
      case isFalse hheader =>
        exact runIngest_of_done hfatal
          (hbrmtdecBody_of_header hmax hfixed (Nat.not_lt.1 hheader))

/-! ## The profile table (R6, R253) -/

/-- No two records of a table R6 allows have one 7-tuple. -/
theorem nodup_keys_of_tableOk {c : Config} (h : c.tableOk = true) :
    (c.profileTable.map Profile.key).Nodup := by
  simp only [Config.tableOk, Bool.and_eq_true, decide_eq_true_eq] at h
  exact h.2

/-- Where keys are distinct, two indices whose records have one key are the same. -/
theorem index_unique_of_key {table : List Profile} (hnodup : (table.map Profile.key).Nodup)
    {j k : Nat} {p q : Profile} (hj : table[j]? = some p) (hk : table[k]? = some q)
    (hkey : p.key = q.key) : j = k := by
  have hlt : j < (table.map Profile.key).length := by
    rw [List.length_map]
    exact (List.getElem?_eq_some_iff.1 hj).1
  refine (List.getElem?_inj hlt hnodup).1 ?_
  rw [List.getElem?_map, List.getElem?_map, hj, hk, Option.map_some, Option.map_some, hkey]

/-- The search of a table with distinct keys answers the one record that has the key (R253). -/
theorem findProfile_eq_some_iff {table : List Profile} {key : ProfileKey}
    (hnodup : (table.map Profile.key).Nodup) {k : Nat} {p : Profile} :
    findProfile table key 0 = some (k, p) ↔ table[k]? = some p ∧ p.key = key := by
  constructor
  case mp =>
    intro h
    obtain ⟨-, hget, hkey⟩ := findProfile_eq_some h
    exact ⟨hget, hkey⟩
  case mpr =>
    rintro ⟨hget, hkey⟩
    cases hfind : findProfile table key 0 with
    | none => exact absurd hkey (findProfile_eq_none.1 hfind p (List.mem_of_getElem? hget))
    | some found =>
      obtain ⟨j, q⟩ := found
      obtain ⟨-, hgetj, hkeyj⟩ := findProfile_eq_some hfind
      obtain rfl : j = k := index_unique_of_key hnodup hgetj hget (hkeyj.trans hkey.symm)
      obtain rfl : q = p := Option.some.inj (hgetj.symm.trans hget)
      rfl

/-! ## The resolver (R251, R252) -/

/-- The 7-tuple the resolver looks for; `resolveFromHbrmt_of_lookups` ties it to the resolver. -/
def wantedKey (g : FrameGeometry) (rate depth : Nat) (map : BitVec 4) : ProfileKey where
  activeWidth := g.activePixels
  activeHeight := g.activeLines
  scanlinesNb := g.scanlines
  frameRate := rate
  bitDepth := depth
  mapCode := map
  interlaced := g.interlaced

/-- The match is equality on all seven components (R253). -/
theorem key_eq_wantedKey_iff {p : Profile} {g : FrameGeometry} {rate depth : Nat}
    {map : BitVec 4} :
    p.key = wantedKey g rate depth map ↔
      p.activeWidth = g.activePixels ∧ p.activeHeight = g.activeLines ∧
        p.scanlinesNb = g.scanlines ∧ p.frameRate = rate ∧ p.bitDepth = depth ∧
        p.mapCode = map ∧ p.interlaced = g.interlaced := by
  rw [Profile.key, wantedKey, ProfileKey.mk.injEq]

/-- R252: SAMPLE 5, 6 and 7 stand for 0, 1 and 2 on an interlaced format, and on no other. -/
theorem foldSample_eq (interlaced : Bool) (sample : BitVec 4) :
    foldSample interlaced sample =
      if interlaced = true ∧ sample = 5 then 0
      else if interlaced = true ∧ sample = 6 then 1
      else if interlaced = true ∧ sample = 7 then 2
      else sample := by
  unfold foldSample
  split
  case isTrue hfold =>
    obtain ⟨rfl, rfl | rfl | rfl⟩ := hfold <;> rfl
  case isFalse hkeep =>
    rw [if_neg fun h => hkeep ⟨h.1, .inl h.2⟩, if_neg fun h => hkeep ⟨h.1, .inr (.inl h.2)⟩,
      if_neg fun h => hkeep ⟨h.1, .inr (.inr h.2)⟩]

section Lookups

variable {c : Config} {map : BitVec 4} {frm frate : BitVec 8} {sample : BitVec 4}
  {g : FrameGeometry} {rate depth : Nat}

theorem resolveFromHbrmt_of_noFrame (hframe : c.frame frm = none) :
    resolveFromHbrmt c map frm frate sample = .error .frame := by
  simp only [resolveFromHbrmt, hframe]

theorem resolveFromHbrmt_of_noRate (hframe : c.frame frm = some g) (hrate : c.frate frate = none) :
    resolveFromHbrmt c map frm frate sample = .error .frate := by
  simp only [resolveFromHbrmt, hframe, hrate]

theorem resolveFromHbrmt_of_noDepth (hframe : c.frame frm = some g)
    (hrate : c.frate frate = some rate)
    (hdepth : c.sample (foldSample g.interlaced sample) = none) :
    resolveFromHbrmt c map frm frate sample = .error .sample := by
  simp only [resolveFromHbrmt, hframe, hrate, hdepth]

/-- Once the three lookups pass, the answer is the table search's. -/
theorem resolveFromHbrmt_of_lookups (hframe : c.frame frm = some g)
    (hrate : c.frate frate = some rate)
    (hdepth : c.sample (foldSample g.interlaced sample) = some depth) :
    resolveFromHbrmt c map frm frate sample =
      (findProfile c.profileTable (wantedKey g rate depth map) 0).elim (.error .profile) .ok := by
  simp only [resolveFromHbrmt, hframe, hrate, hdepth, wantedKey]
  split
  case h_1 hnone => rw [hnone, Option.elim_none]
  case h_2 found hfound => rw [hfound, Option.elim_some]

theorem resolveFromHbrmt_eq_ok_iff (htable : c.tableOk = true) (hframe : c.frame frm = some g)
    (hrate : c.frate frate = some rate)
    (hdepth : c.sample (foldSample g.interlaced sample) = some depth) {k : Nat} {p : Profile} :
    resolveFromHbrmt c map frm frate sample = .ok (k, p) ↔
      c.profileTable[k]? = some p ∧ p.key = wantedKey g rate depth map := by
  rw [resolveFromHbrmt_of_lookups hframe hrate hdepth,
    ← findProfile_eq_some_iff (nodup_keys_of_tableOk htable)]
  cases findProfile c.profileTable (wantedKey g rate depth map) 0 <;> simp

theorem resolveFromHbrmt_eq_noProfile_iff (hframe : c.frame frm = some g)
    (hrate : c.frate frate = some rate)
    (hdepth : c.sample (foldSample g.interlaced sample) = some depth) :
    resolveFromHbrmt c map frm frate sample = .error .profile ↔
      ∀ p ∈ c.profileTable, p.key ≠ wantedKey g rate depth map := by
  rw [resolveFromHbrmt_of_lookups hframe hrate hdepth, ← findProfile_eq_none (n := 0)]
  cases findProfile c.profileTable (wantedKey g rate depth map) 0 <;> simp

end Lookups

/-- Settles O33: the lookups in their order, then the search of a table with distinct 7-tuples. -/
theorem resolverMatchesTheTable : Obligations.ResolverMatchesTheTable := by
  refine ⟨⟨rfl, rfl, rfl, rfl⟩, fun c map frm frate sample htable =>
    ⟨resolveFromHbrmt_of_noFrame, fun g hframe =>
      ⟨resolveFromHbrmt_of_noRate hframe, fun rate idx hrate hidx => ?_⟩⟩⟩
  rw [← foldSample_eq] at hidx
  subst hidx
  refine ⟨resolveFromHbrmt_of_noDepth hframe hrate, fun depth hdepth => ⟨fun k p => ?_, ?_⟩⟩
  · rw [resolveFromHbrmt_eq_ok_iff htable hframe hrate hdepth, key_eq_wantedKey_iff]
  · simp only [resolveFromHbrmt_eq_noProfile_iff hframe hrate hdepth, ne_eq, key_eq_wantedKey_iff]

/-! ## PROFRES (R255) -/

/-- What the resolver says of HB_W1, the word HBRMTDEC left (R255). -/
def wordResolves (s : State) : Except ResolveStage (Nat × Profile) :=
  resolveFromHbrmt s.config (hbMap s.hdr.hbW1) (hbFrm s.hdr.hbW1) (hbFrate s.hdr.hbW1)
    (hbSample s.hdr.hbW1)

theorem profresBody_of_resolved {s : State} {k : Nat} {p : Profile}
    (h : wordResolves s = .ok (k, p)) :
    profresBody s =
      .done
        { s with
          hdr.profIndex := BitVec.ofNat 8 k, hdr.profStage := 0
          ing.ir0 := BitVec.ofNat 32 k, ing.ir1 := BitVec.ofNat 32 p.transportFrameSizeBytes }
        .ok {} := by
  unfold wordResolves at h
  simp only [profresBody, h]

theorem profresBody_of_unresolved {s : State} {st : ResolveStage} (h : wordResolves s = .error st) :
    profresBody s =
      .done
        { s with
          hdr.profIndex := 0xFF, hdr.profStage := stageCode st
          ing.ir0 := 0xFF, ing.ir1 := 0 }
        .notDefined {} := by
  unfold wordResolves at h
  simp only [profresBody, h]

/-- Settles O32: PROFRES never holds or stops, so it completes as the resolver answers. -/
theorem profresReportsTheResolution : Obligations.ProfresReportsTheResolution := by
  intro s hfatal
  rw [exec_of_ingest rfl]
  split
  case h_1 k p hres => exact runIngest_of_done hfatal (profresBody_of_resolved hres)
  case h_2 st hres => exact runIngest_of_done hfatal (profresBody_of_unresolved hres)

end Sys2Proof.Machine
end

section
/-! SUPPORT. The CRC-18 fold from its last word (R280) and the bytes it touches (R282), and the ways
CRCCOMP, CRCWORDS and CRCCHECK complete (R290 to R292). -/

namespace Sys2Proof.Machine

open Sys2Proof

/-! ## The remainder (R280) -/

/-- The fold taken from its last word. -/
theorem crcFold_succ_last (s : State) (sp : Space) (step n i : Nat) (c : BitVec 18) :
    crcFold s sp step (n + 1) i c =
      crcWord (crcFold s sp step n i c) (getWord s sp (i + n * step)) := by
  induction n generalizing i c with
  | zero => simp only [crcFold, Nat.zero_mul, Nat.add_zero]
  | succ n ih =>
    have hlast : i + step + n * step = i + (n + 1) * step := by
      rw [Nat.succ_mul]
      omega
    rw [crcFold, ih, hlast, crcFold]

@[simp] theorem crc18_zero (s : State) (sp : Space) (start step : Nat) :
    crc18 s sp start 0 step = 0 := rfl

theorem crc18_succ (s : State) (sp : Space) (start n step : Nat) :
    crc18 s sp start (n + 1) step =
      crcWord (crc18 s sp start n step) (getWord s sp (start + n * step)) :=
  crcFold_succ_last s sp step n start 0

/-! ## The bytes a remainder depends on (R282) -/

/-- A word reads its own two bytes and nothing else. -/
theorem getWord_congr {s t : State} {sp : Space} {i : Nat}
    (hfirst : t.spaceByte sp (wordByte i) = s.spaceByte sp (wordByte i))
    (hsecond : t.spaceByte sp (wordByte i + 1) = s.spaceByte sp (wordByte i + 1)) :
    getWord t sp i = getWord s sp i := by
  simp only [getWord, be16, hfirst, hsecond]

theorem crc18_congr {s t : State} {sp : Space} {start count step : Nat}
    (h : ∀ k < count, getWord t sp (start + k * step) = getWord s sp (start + k * step)) :
    crc18 t sp start count step = crc18 s sp start count step := by
  induction count with
  | zero => simp only [crc18_zero]
  | succ n ih =>
    rw [crc18_succ, crc18_succ, h n (Nat.lt_succ_self n),
      ih fun k hk => h k (Nat.lt_succ_of_lt hk)]

/-- Settles O37: the remainder is a fold of its words, and a word is read from its two bytes. -/
theorem crcDependsOnTouchedBytes : Obligations.CrcDependsOnTouchedBytes := by
  intro s t sp start count step hbytes
  have hrem : crc18 t sp start count step = crc18 s sp start count step :=
    crc18_congr fun k hk =>
      have ⟨hfirst, hsecond⟩ := hbytes k hk _ rfl
      getWord_congr hfirst hsecond
  rw [hrem]
  exact ⟨rfl, rfl, rfl⟩

/-! ## The operands of CRCCOMP and CRCCHECK (R290, R292) -/

/-- The remainder IA0, IA1 and IA2 name; `crccompBody_of_inBounds` and `crccheckBody_of_inBounds`
tie it to the commands. -/
def operandCrc (s : State) (space : Space) : BitVec 18 :=
  crc18 s space s.ing.ia0.toNat s.ing.ia1.toNat s.ing.ia2.toNat

/-- The words IA0, IA1 and IA2 list are inside the space. -/
def operandRangeFits (s : State) (space : Space) : Bool :=
  crcRangeFits s.config space s.ing.ia0.toNat s.ing.ia1.toNat s.ing.ia2.toNat

/-- A range is out of bounds where it has a word and its last word is (R290). -/
theorem crcRangeFits_eq_false_iff (c : Config) (sp : Space) (start count step : Nat) :
    crcRangeFits c sp start count step = false ↔
      0 < count ∧ sp.size c ≤ wordByte (start + (count - 1) * step) + 1 := by
  rw [crcRangeFits, Bool.or_eq_false_iff, decide_eq_false_iff_not, wordFits_eq_false_iff,
    Nat.pos_iff_ne_zero]

/-! ## CRCCOMP (R290) -/

theorem crccompBody_of_noSpace {s : State} {sp sl : Nat} (h : spaceOf s.config sp sl = none) :
    crccompBody sp sl s = .done s .badArg {} := by
  simp only [crccompBody, h]

theorem crccompBody_of_outOfBounds {s : State} {sp sl : Nat} {space : Space}
    (hspace : spaceOf s.config sp sl = some space) (hout : operandRangeFits s space = false) :
    crccompBody sp sl s = .done s .badArg {} := by
  unfold operandRangeFits at hout
  simp only [crccompBody, hspace, hout, Bool.false_eq_true, if_false]

theorem crccompBody_of_inBounds {s : State} {sp sl : Nat} {space : Space}
    (hspace : spaceOf s.config sp sl = some space) (hin : operandRangeFits s space = true) :
    crccompBody sp sl s =
      .done
        { s with
          hdr.crcRem := operandCrc s space
          ing.ir0 := (operandCrc s space).setWidth 32 }
        .ok {} := by
  unfold operandRangeFits at hin
  simp only [crccompBody, hspace, hin, if_true, operandCrc]

/-- Settles O34: the fold from its last word, and the three ways CRCCOMP completes. -/
theorem crccompReturnsTheRemainder : Obligations.CrccompReturnsTheRemainder := by
  refine ⟨fun s sp start step =>
    ⟨crc18_zero s sp start step, fun n => crc18_succ s sp start n step⟩, fun s sp sl hfatal => ?_⟩
  rw [exec_of_ingest rfl]
  refine ⟨?noSpace, ?space⟩
  case noSpace =>
    intro hbad
    exact runIngest_of_done hfatal (crccompBody_of_noSpace (spaceOf_eq_none.2 hbad))
  case space =>
    rintro space _ _ _ _ hspace rfl rfl rfl rfl
    have hbounds := crcRangeFits_eq_false_iff s.config space s.ing.ia0.toNat s.ing.ia1.toNat
      s.ing.ia2.toNat
    split
    case isTrue hout =>
      exact runIngest_of_done hfatal (crccompBody_of_outOfBounds hspace (hbounds.2 hout))
    case isFalse hin =>
      exact runIngest_of_done hfatal
        (crccompBody_of_inBounds hspace (eq_true_of_ne_false (mt hbounds.1 hin)))

/-! ## CRCWORDS (R291) -/

theorem crcwordsBody_eq (s : State) :
    crcwordsBody s =
      .done
        { s with
          hdr.crcWord0 := crcTx0 s.hdr.crcRem, hdr.crcWord1 := crcTx1 s.hdr.crcRem
          ing.ir0 := (crcTx0 s.hdr.crcRem).setWidth 32
          ing.ir1 := (crcTx1 s.hdr.crcRem).setWidth 32 }
        .ok {} := rfl

/-- Settles O35: CRCWORDS has one end, and it completes. -/
theorem crcwordsMakesTransmissionWords : Obligations.CrcwordsMakesTransmissionWords := by
  rintro s hfatal _ _ rfl rfl
  rw [exec_of_ingest rfl]
  exact runIngest_of_done hfatal (crcwordsBody_eq s)

/-! ## CRCCHECK (R292) -/

/-- The two stored words as IR0 shows them: CRC1 from bit 16 on, CRC0 from bit 0 on. -/
theorem storedWords_eq (w0 w1 : BitVec 10) :
    (0 : BitVec 6) ++ w1 ++ (0 : BitVec 6) ++ w0 =
      w1.setWidth 32 <<< 16 ||| w0.setWidth 32 := by
  calc (0 : BitVec 6) ++ w1 ++ (0 : BitVec 6) ++ w0
      = ((0 : BitVec 6) ++ w1 ++ (0 : BitVec 6) ++ w0).setWidth 32 := (BitVec.setWidth_eq _).symm
    _ = fieldAt w0 0 ||| fieldAt w1 16 := by
      simp only [setWidth_eq_fieldAt, fieldAt_append, fieldAt_zero, Nat.zero_add, BitVec.zero_or,
        BitVec.or_zero]
    _ = fieldAt w1 16 ||| w0.setWidth 32 := by rw [BitVec.or_comm, setWidth_eq_fieldAt]

theorem storedCrc1Index_eq (i0 step : Nat) :
    storedCrc1Index i0 step = if step = 0 then i0 + 1 else i0 + step := by
  rw [storedCrc1Index, ite_not, ← apply_ite (i0 + ·)]

/-- The index of the stored CRC0 (R292). -/
def checkedIndex0 (s : State) : Nat := s.ing.ia3.toNat

/-- The index of the stored CRC1 (R292). -/
def checkedIndex1 (s : State) : Nat := storedCrc1Index s.ing.ia3.toNat s.ing.ia2.toNat

/-- CRCCHECK's bounds: the two stored words and the range are inside the space (R292). -/
def checkFits (s : State) (space : Space) : Bool :=
  wordFits s.config space (checkedIndex0 s) && wordFits s.config space (checkedIndex1 s) &&
    operandRangeFits s space

theorem checkFits_eq_false_iff (s : State) (space : Space) :
    checkFits s space = false ↔
      space.size s.config ≤ wordByte (checkedIndex0 s) + 1 ∨
        space.size s.config ≤ wordByte (checkedIndex1 s) + 1 ∨
          operandRangeFits s space = false := by
  rw [checkFits, Bool.and_eq_false_iff, Bool.and_eq_false_iff, wordFits_eq_false_iff,
    wordFits_eq_false_iff, or_assoc]

theorem crccheckBody_of_noSpace {s : State} {sp sl : Nat} (h : spaceOf s.config sp sl = none) :
    crccheckBody sp sl s = .done s .badArg {} := by
  simp only [crccheckBody, h]

theorem crccheckBody_of_outOfBounds {s : State} {sp sl : Nat} {space : Space}
    (hspace : spaceOf s.config sp sl = some space) (hout : checkFits s space = false) :
    crccheckBody sp sl s = .done s .badArg {} := by
  unfold checkFits checkedIndex0 checkedIndex1 operandRangeFits at hout
  simp only [crccheckBody, hspace, hout, Bool.false_eq_true, if_false]

theorem crccheckBody_of_inBounds {s : State} {sp sl : Nat} {space : Space}
    (hspace : spaceOf s.config sp sl = some space) (hin : checkFits s space = true) :
    crccheckBody sp sl s =
      .done
        { s with
          hdr.crcRem := operandCrc s space
          hdr.crcWord0 := crcTx0 (operandCrc s space), hdr.crcWord1 := crcTx1 (operandCrc s space)
          ing.ir0 :=
            (getWord s space (checkedIndex1 s)).setWidth 32 <<< 16 |||
              (getWord s space (checkedIndex0 s)).setWidth 32
          ing.ir1 := (operandCrc s space).setWidth 32 }
        (if getWord s space (checkedIndex0 s) = crcTx0 (operandCrc s space) ∧
            getWord s space (checkedIndex1 s) = crcTx1 (operandCrc s space) then .crcPass
          else .crcFail)
        {} := by
  rw [← storedWords_eq]
  unfold checkFits checkedIndex0 checkedIndex1 operandRangeFits at hin
  simp only [crccheckBody, hspace, hin, if_true]
  rfl

/-- Settles O36: CRCCHECK never holds or stops, so each of its ends is a completion. -/
theorem crccheckComparesStoredWords : Obligations.CrccheckComparesStoredWords := by
  intro s sp sl hfatal
  rw [exec_of_ingest rfl]
  refine ⟨?noSpace, ?space⟩
  case noSpace =>
    intro hbad
    exact runIngest_of_done hfatal (crccheckBody_of_noSpace (spaceOf_eq_none.2 hbad))
  case space =>
    rintro space _ _ _ _ i1 _ _ _ _ hspace rfl rfl rfl rfl hi1 rfl rfl rfl rfl
    obtain rfl : i1 = checkedIndex1 s := hi1.trans (storedCrc1Index_eq ..).symm
    have hbounds := checkFits_eq_false_iff s space
    rw [operandRangeFits, crcRangeFits_eq_false_iff] at hbounds
    split
    case isTrue hout =>
      exact runIngest_of_done hfatal (crccheckBody_of_outOfBounds hspace (hbounds.2 hout))
    case isFalse hin =>
      exact runIngest_of_done hfatal
        (crccheckBody_of_inBounds hspace (eq_true_of_ne_false (mt hbounds.1 hin)))

end Sys2Proof.Machine
end

section
/-! SUPPORT. The packet in PKT as FAADD reads it (R312), what each step of FAADD does with it (R313
to R320), and the statements on the frame assembler. -/

namespace Sys2Proof.Machine

open Sys2Proof

/-! ## FARESET and FAABORT -/

/-- Settles O44: FARESET has one end, and it completes. -/
theorem faresetResetsTheAssembler : Obligations.FaresetResetsTheAssembler := by
  intro s hfatal
  rw [exec_of_ingest rfl]
  exact runIngest_of_done (body := faresetBody) hfatal rfl

/-- Settles O45: FAABORT has one end, and it completes. -/
theorem faabortEntersWaitingSync : Obligations.FaabortEntersWaitingSync := by
  intro s hfatal
  rw [exec_of_ingest rfl]
  exact runIngest_of_done (body := faabortBody) hfatal rfl

/-! ## The packet in PKT (R141, R142, R241, R242) -/

/-- The RTP header of the packet in PKT; `parseRtp_pkt` ties it to the parser. -/
def pktRtp (s : State) : RtpView where
  version := (s.spaceByte .pkt 0).extractLsb' 6 2
  padding := (s.spaceByte .pkt 0).extractLsb' 5 1
  extension := (s.spaceByte .pkt 0).extractLsb' 4 1
  csrcCount := (s.spaceByte .pkt 0).extractLsb' 0 4
  marker := (s.spaceByte .pkt 1).extractLsb' 7 1
  payloadType := pktType s
  seq := pktSeq s
  timestamp := be32 s .pkt 4
  ssrc := be32 s .pkt 8

theorem parseRtp_pkt {s : State} {n : Nat} (h : 12 ≤ n) : parseRtp s .pkt n = some (pktRtp s) := by
  rw [parseRtp, if_neg (Nat.not_lt.2 h)]
  rfl

/-- The marker is the M bit (R221). -/
theorem isEndOfFrame_pktRtp (s : State) : isEndOfFrame (pktRtp s) = pktMarker s := by
  have hbit : (pktRtp s).marker = BitVec.ofBool (pktMarker s) := by
    ext j hj
    obtain rfl : j = 0 := by omega
    simp [pktRtp, pktMarker]
  rw [isEndOfFrame, hbit]
  cases pktMarker s <;> rfl

/-- What FAADD knows of the packet in PKT; `transportCheck_of_passes` ties it to the checks. -/
def pktHead (s : State) : PacketHead where
  rtp := pktRtp s
  hb := decodeHbrmt s .pkt 12
  length := pktLength s
  headerLen := pktHeaderLength s

theorem passesTransport.notFatal {s : State} (h : passesTransport s) : s.fatal = none := by
  obtain ⟨hfatal, -⟩ := h
  exact hfatal

theorem collects.passes {s : State} (h : collects s) : passesTransport s := by
  obtain ⟨hpass, -⟩ := h
  exact hpass

theorem collects.inSequence {s : State} (h : collects s) : inSequence s := by
  obtain ⟨-, hseq, -⟩ := h
  exact hseq

theorem payloadLen_pktHead (s : State) : payloadLen (pktHead s) = (pktPayload s).length :=
  (length_spaceBytes ..).symm

/-! ## FAADD step 1: the transport checks (R312) -/

theorem transportCheck_of_tooShort {s : State} {n : Nat} (h : n < 12) :
    transportCheck s n = skipMalformed s none := by
  simp only [transportCheck, parseRtp_eq_none.2 h]

theorem transportCheck_of_otherType {s : State} {n : Nat} (h : 12 ≤ n) (htype : pktType s ≠ 98) :
    transportCheck s n =
      .skip
        (recordEvent { s with cnt := { s.cnt with ptDrop := s.cnt.ptDrop + 1 } } .ptDrop none
          (some (pktSeq s, pktSeq s)))
        .ptDrop := by
  have hpt : (pktRtp s).payloadType ≠ Config.payloadType := htype
  simp only [transportCheck, parseRtp_pkt h, if_pos hpt]
  rfl

theorem transportCheck_of_cut {s : State} {n : Nat} (h : 12 ≤ n) (htype : pktType s = 98)
    (hcut : n < 20 ∨ n < 12 + pktHeaderLength s) :
    transportCheck s n = skipMalformed s (some (pktSeq s, pktSeq s)) := by
  have hpt : ¬ (pktRtp s).payloadType ≠ Config.payloadType := not_not.2 htype
  rw [← headerLength_decodeHbrmt] at hcut
  simp only [transportCheck, parseRtp_pkt h, if_neg hpt]
  split
  case isTrue => rfl
  case isFalse hfixed =>
    rw [if_pos (hcut.resolve_left hfixed)]
    rfl

theorem transportCheck_of_passes {s : State} (h : passesTransport s) :
    transportCheck s (pktLength s) = .pass (pktHead s) := by
  obtain ⟨-, -, hfixed, htype, hheader⟩ := h
  exact transportCheck_eq_pass.2
    ⟨pktRtp s, parseRtp_pkt (by omega), htype, hfixed, hheader, rfl⟩

theorem faaddBody_of_tooLong {s : State} (h : s.config.maxPktBytes < pktLength s) :
    faaddBody s = .done s .badArg {} := by
  simp only [faaddBody, packetLength_eq_none.2 h]

theorem faaddBody_of_skip {s t : State} {code : Status} (hmax : pktLength s ≤ s.config.maxPktBytes)
    (h : transportCheck s (pktLength s) = .skip t code) : faaddBody s = .done t code {} := by
  simp only [faaddBody, packetLength_of_le hmax, h]

/-- Settles O38: each refusal of the transport checks completes. -/
theorem faaddSkipsBadPackets : Obligations.FaaddSkipsBadPackets := by
  intro s hfatal
  rw [exec_of_ingest rfl]
  refine ⟨fun hlong => ?tooLong, fun hmax hshort => ?tooShort, fun hmax hrtp htype => ?otherType,
    fun hmax hrtp htype hcut => ?cut⟩
  case tooLong => exact runIngest_of_done hfatal (faaddBody_of_tooLong hlong)
  case tooShort =>
    exact runIngest_of_done hfatal (faaddBody_of_skip hmax (transportCheck_of_tooShort hshort))
  case otherType =>
    exact runIngest_of_done hfatal
      (faaddBody_of_skip hmax (transportCheck_of_otherType hrtp htype))
  case cut =>
    exact runIngest_of_done hfatal
      (faaddBody_of_skip hmax (transportCheck_of_cut hrtp htype hcut))

/-! ## FAADD step 2: the slot (R313) -/

theorem faaddBody_of_passes {s : State} (h : passesTransport s) :
    faaddBody s = (acquireSlot s).elim .hold fun tk => collectPacket tk.1 tk.2 (pktHead s) := by
  have hpass := transportCheck_of_passes h
  obtain ⟨-, hmax, -⟩ := h
  simp only [faaddBody, packetLength_of_le hmax, hpass]
  cases acquireSlot s <;> rfl

/-- Settles O39: with no slot to acquire FAADD holds. -/
theorem faaddHoldsWithoutFreeSlot : Obligations.FaaddHoldsWithoutFreeSlot := by
  intro s hpass hcur hfree
  have hbody : faaddBody s = .hold := by
    rw [faaddBody_of_passes hpass, acquireSlot_eq_none.2 ⟨hcur, hfree⟩]
    rfl
  rw [exec_of_ingest rfl]
  exact runIngest_of_hold hpass.notFatal hbody

/-- The search finds the slot that is FREE with none FREE before it. -/
theorem firstFree_of_lowest {slots : List Slot} {k : Nat} {t : Slot} (hk : slots[k]? = some t)
    (hfree : t.state = .free) (hlow : ∀ j < k, ∀ u, slots[j]? = some u → u.state ≠ .free) :
    firstFree slots 0 = some k := by
  cases hfound : firstFree slots 0 with
  | none => exact absurd hfree (firstFree_eq_none.1 hfound t (List.mem_of_getElem? hk))
  | some j =>
    obtain ⟨-, ⟨u, hu, hufree⟩, hjlow⟩ := firstFree_eq_some hfound
    rw [Nat.sub_zero] at hu hjlow
    have hkj : k ≤ j := Nat.not_lt.1 fun hlt => hlow j hlt u hu hufree
    have hjk : j ≤ k := Nat.not_lt.1 fun hlt => hjlow k hlt t hk hfree
    rw [Nat.le_antisymm hjk hkj]

/-- The state once the assembler owns slot `k`; `acquireSlot_of_takesSlot` ties it to step 2. -/
def slotTaken (s : State) (k : Nat) (slots : List Slot) : State :=
  { s with slots, fa.cur := some (BitVec.ofNat 8 k) }

theorem acquireSlot_of_takesSlot {s : State} {k : Nat} {slots : List Slot}
    (h : takesSlot s k slots) : acquireSlot s = some (slotTaken s k slots, k) := by
  obtain ⟨-, h⟩ := h
  cases hcur : s.fa.cur with
  | some c =>
    rw [hcur] at h
    obtain ⟨rfl, rfl⟩ := h
    have hsame : slotTaken s c.toNat s.slots = s := by
      rw [slotTaken, BitVec.ofNat_toNat, BitVec.setWidth_eq, ← hcur]
    rw [acquireSlot, hsame]
    simp only [hcur]
  | none =>
    rw [hcur] at h
    obtain ⟨⟨t, ht, hfree⟩, hlow, rfl⟩ := h
    simp only [acquireSlot, hcur, firstFree_of_lowest ht hfree hlow]
    rfl

theorem faaddBody_of_takesSlot {s : State} {k : Nat} {slots : List Slot} (h : passesTransport s)
    (hslot : takesSlot s k slots) :
    faaddBody s = collectPacket (slotTaken s k slots) k (pktHead s) := by
  rw [faaddBody_of_passes h, acquireSlot_of_takesSlot hslot]
  rfl

/-! ## FAADD steps 3 and 4: the next frame and the sequence (R314, R315) -/

/-- The state of the assembler once step 3 has left Complete (R314). -/
def startState (s : State) : FaState := if s.fa.state = .complete then .collecting else s.fa.state

theorem startNextFrame_eq (s : State) :
    startNextFrame s =
      { s with fa.state := startState s, fa.acc := startAcc s, fa.pktcnt := startCount s } := by
  unfold startNextFrame startState startAcc startCount
  split <;> rfl

theorem sequenceLost_iff (s : State) (q : Seq) :
    sequenceLost s q = true ↔ s.fa.first = false ∧ q ≠ s.fa.lastSeq + 1 := by
  simp only [sequenceLost, Bool.and_eq_true, Bool.not_eq_true', decide_eq_true_eq]

theorem sequenceLost_iff_notInSequence (s : State) (k : Nat) (slots : List Slot) :
    sequenceLost (startNextFrame (slotTaken s k slots)) (pktSeq s) = true ↔ ¬ inSequence s := by
  rw [sequenceLost_iff, startNextFrame_eq, inSequence, not_or, Bool.not_eq_true]
  rfl

theorem sequenceLost_of_inSequence {s : State} (h : inSequence s) (k : Nat) (slots : List Slot) :
    sequenceLost (startNextFrame (slotTaken s k slots)) (pktSeq s) = false :=
  Bool.eq_false_iff.2 (mt (sequenceLost_iff_notInSequence s k slots).1 (not_not.2 h))

/-- The state once the packet in PKT has passed the sequence check (R314, R315). -/
def sequenceKept (s : State) (k : Nat) (slots : List Slot) : State :=
  { s with
    slots
    fa :=
      { s.fa with
        state := startState s, first := false, cur := some (BitVec.ofNat 8 k)
        lastSeq := pktSeq s, acc := startAcc s, pktcnt := startCount s } }

theorem packetTaken_of_inSequence {s : State} (h : inSequence s) (k : Nat) (slots : List Slot) :
    packetTaken (slotTaken s k slots) (pktSeq s) = sequenceKept s k slots := by
  rw [packetTaken, sequenceCheck_of_ok (sequenceLost_of_inSequence h k slots), startNextFrame_eq]
  rfl

/-- The state once a packet in sequence has found the assembler in WaitingSync (R315). -/
def stillWaiting (s : State) (k : Nat) (slots : List Slot) : State :=
  { s with
    slots
    fa :=
      { s.fa with
        state := .waitingSync, first := false, cur := some (BitVec.ofNat 8 k)
        lastSeq := pktSeq s } }

theorem sequenceKept_of_waiting {s : State} (h : s.fa.state = .waitingSync) (k : Nat)
    (slots : List Slot) : sequenceKept s k slots = stillWaiting s k slots := by
  simp only [sequenceKept, stillWaiting, startState, startAcc, startCount, h, reduceCtorEq,
    if_false]

/-- The state once the packet in PKT has failed the sequence check (R315). -/
def synchronisationLost (s : State) (k : Nat) (slots : List Slot) : State :=
  { recordEvent s .seqLoss none (some (s.fa.lastSeq + 1, pktSeq s - 1)) with
    slots
    cnt.seqLoss := s.cnt.seqLoss + 1
    fa :=
      { s.fa with
        state := .waitingSync, first := false, cur := some (BitVec.ofNat 8 k)
        lastSeq := pktSeq s, acc := 0, pktcnt := 0 } }

theorem packetTaken_of_notInSequence {s : State} (h : ¬ inSequence s) (k : Nat)
    (slots : List Slot) :
    packetTaken (slotTaken s k slots) (pktSeq s) = synchronisationLost s k slots := by
  rw [packetTaken, sequenceCheck_of_lost ((sequenceLost_iff_notInSequence s k slots).2 h),
    startNextFrame_eq]
  rfl

/-! ## FAADD step 5: WaitingSync (R316) -/

theorem resyncFilter_pktRtp (s t : State) (flags : CmdFlags) :
    resyncFilter t (pktRtp s) flags =
      if pktMarker s then
        .done { t with fa.state := .collecting, fa.acc := 0, fa.pktcnt := 0 } .resync flags
      else .done t .discarded flags := by
  rw [resyncFilter, isEndOfFrame_pktRtp]

theorem collectPacket_of_waiting {s t : State} {k : Nat} {h : PacketHead} {lost : Bool}
    (htaken : packetTaken s h.rtp.seq = t)
    (hlost : sequenceLost (startNextFrame s) h.rtp.seq = lost)
    (hwait : t.fa.state = .waitingSync) :
    collectPacket s k h = resyncFilter t h.rtp { loss := lost } := by
  unfold packetTaken at htaken
  simp only [collectPacket, htaken, hlost, if_pos hwait]

/-- A loss enters WaitingSync and is filtered there in the same command (R316). -/
theorem faaddBody_of_notInSequence {s : State} {k : Nat} {slots : List Slot}
    (h : passesTransport s) (hslot : takesSlot s k slots) (hseq : ¬ inSequence s) :
    faaddBody s = resyncFilter (synchronisationLost s k slots) (pktRtp s) { loss := true } :=
  (faaddBody_of_takesSlot h hslot).trans
    (collectPacket_of_waiting (packetTaken_of_notInSequence hseq k slots)
      ((sequenceLost_iff_notInSequence s k slots).2 hseq) rfl)

theorem faaddBody_of_waiting {s : State} {k : Nat} {slots : List Slot}
    (h : passesTransport s) (hslot : takesSlot s k slots) (hseq : inSequence s)
    (hwait : s.fa.state = .waitingSync) :
    faaddBody s = resyncFilter (stillWaiting s k slots) (pktRtp s) {} :=
  (faaddBody_of_takesSlot h hslot).trans
    (collectPacket_of_waiting
      ((packetTaken_of_inSequence hseq k slots).trans (sequenceKept_of_waiting hwait k slots))
      (sequenceLost_of_inSequence hseq k slots) rfl)

/-- Settles O40: a loss enters WaitingSync, and in WaitingSync the marker decides. -/
theorem faaddResynchronises : Obligations.FaaddResynchronises := by
  intro s k slots hpass hslot
  rw [exec_of_ingest rfl]
  refine ⟨fun hseq => ?lost, fun hseq hwait => ?waiting⟩
  case lost =>
    have hbody := faaddBody_of_notInSequence hpass hslot hseq
    rw [resyncFilter_pktRtp] at hbody
    cases hmarker : pktMarker s <;> rw [hmarker] at hbody <;>
      exact runIngest_of_done hpass.notFatal hbody
  case waiting =>
    have hbody := faaddBody_of_waiting hpass hslot hseq hwait
    rw [resyncFilter_pktRtp] at hbody
    cases hmarker : pktMarker s <;> rw [hmarker] at hbody <;>
      exact runIngest_of_done hpass.notFatal hbody

/-! ## FAADD step 6: the profile (R317) -/

/-- A GEOMETRY event and its Fatal as one update of the state (R455). -/
theorem geometryFatal_eq (s : State) (kind : EventKind) (cause : FatalCause) (stage : BitVec 3)
    (q : Seq) :
    geometryFatal s kind cause stage q =
      { s with
        fatal := some { cause, stage, seq := q }
        ev :=
          { count := s.ev.count + 1, last := some { kind, leg := none, range := some (q, q) } } } :=
  rfl

/-- The state once FAADD has a packet to append to a frame, under the profile that is bound then. -/
def readyToAppend (s : State) (k : Nat) (slots : List Slot) (bound : Option (BitVec 8)) : State :=
  { s with
    slots
    fa :=
      { s.fa with
        state := .collecting, first := false, profile := bound, cur := some (BitVec.ofNat 8 k)
        lastSeq := pktSeq s, acc := startAcc s, pktcnt := startCount s } }

theorem readyToAppend_notWaiting (s : State) (k : Nat) (slots : List Slot)
    (bound : Option (BitVec 8)) : (readyToAppend s k slots bound).fa.state ≠ .waitingSync := nofun

theorem sequenceKept_of_collects {s : State} (h : collects s) (k : Nat) (slots : List Slot) :
    sequenceKept s k slots = readyToAppend s k slots s.fa.profile := by
  obtain ⟨-, -, hstate⟩ := h
  have hstart : startState s = .collecting := by
    unfold startState
    cases hfa : s.fa.state with
    | waitingSync => exact absurd hfa hstate
    | collecting => rfl
    | complete => rfl
  rw [sequenceKept, hstart]
  rfl

theorem packetTaken_of_collects {s : State} (h : collects s) (k : Nat) (slots : List Slot) :
    packetTaken (slotTaken s k slots) (pktSeq s) = readyToAppend s k slots s.fa.profile :=
  (packetTaken_of_inSequence h.inSequence k slots).trans (sequenceKept_of_collects h k slots)

theorem bindProfile_of_resolved {s : State} {hb : HbrmtHeader} {k : Nat} {p : Profile}
    (hcount : s.fa.pktcnt = 0) (hnone : s.fa.profile = none)
    (hres : resolveFromHbrmt s.config hb.map hb.frm hb.frate hb.sample = .ok (k, p)) :
    bindProfile s hb = .ok { s with fa.profile := some (BitVec.ofNat 8 k) } := by
  rw [bindProfile, if_pos ⟨hcount, hnone⟩, hres]

theorem bindProfile_of_unresolved {s : State} {hb : HbrmtHeader} {st : ResolveStage}
    (hcount : s.fa.pktcnt = 0) (hnone : s.fa.profile = none)
    (hres : resolveFromHbrmt s.config hb.map hb.frm hb.frate hb.sample = .error st) :
    bindProfile s hb = .error st := by
  rw [bindProfile, if_pos ⟨hcount, hnone⟩, hres]

theorem collectPacket_of_unbound {s t : State} {k : Nat} {h : PacketHead} {lost : Bool}
    {st : ResolveStage} (htaken : packetTaken s h.rtp.seq = t)
    (hlost : sequenceLost (startNextFrame s) h.rtp.seq = lost)
    (hstate : t.fa.state ≠ .waitingSync) (hbind : bindProfile t h.hb = .error st) :
    collectPacket s k h =
      .done (geometryFatal t .profileFatal .profile (stageCode st) h.rtp.seq) .fatal
        { loss := lost } := by
  unfold packetTaken at htaken
  simp only [collectPacket, htaken, hlost, if_neg hstate, hbind]

theorem collectPacket_of_bound {s t u : State} {k : Nat} {h : PacketHead} {lost : Bool}
    (htaken : packetTaken s h.rtp.seq = t)
    (hlost : sequenceLost (startNextFrame s) h.rtp.seq = lost)
    (hstate : t.fa.state ≠ .waitingSync) (hbind : bindProfile t h.hb = .ok u) :
    collectPacket s k h = appendPayload u k h { loss := lost } := by
  unfold packetTaken at htaken
  simp only [collectPacket, htaken, hlost, if_neg hstate, hbind]

/-- The first packet of a frame has no profile the resolver finds: Fatal PROFILE (R317). -/
theorem faaddBody_of_unresolved {s : State} {k : Nat} {slots : List Slot} {st : ResolveStage}
    (h : collects s) (hslot : takesSlot s k slots) (hcount : startCount s = 0)
    (hnone : s.fa.profile = none) (hres : pktResolves s = .error st) :
    faaddBody s =
      .done
        (geometryFatal (readyToAppend s k slots s.fa.profile) .profileFatal .profile
          (stageCode st) (pktSeq s))
        .fatal {} := by
  have hbind : bindProfile (readyToAppend s k slots s.fa.profile) (pktHead s).hb = .error st :=
    bindProfile_of_unresolved hcount hnone hres
  exact (faaddBody_of_takesSlot h.passes hslot).trans
    (collectPacket_of_unbound (packetTaken_of_collects h k slots)
      (sequenceLost_of_inSequence h.inSequence k slots) (readyToAppend_notWaiting s k slots _)
      hbind)

theorem bindProfile_of_bindsTo {s : State} {bound : Option (BitVec 8)} (h : bindsTo s bound)
    (k : Nat) (slots : List Slot) :
    bindProfile (readyToAppend s k slots s.fa.profile) (pktHead s).hb =
      .ok (readyToAppend s k slots bound) := by
  unfold bindsTo at h
  split at h
  case isTrue hfirst =>
    obtain ⟨hcount, hnone⟩ := hfirst
    obtain ⟨j, p, hres, rfl⟩ := h
    exact bindProfile_of_resolved hcount hnone hres
  case isFalse hbound =>
    subst h
    exact if_neg hbound

theorem faaddBody_of_bindsTo {s : State} {k : Nat} {slots : List Slot}
    {bound : Option (BitVec 8)} (h : collects s) (hslot : takesSlot s k slots)
    (hbound : bindsTo s bound) :
    faaddBody s = appendPayload (readyToAppend s k slots bound) k (pktHead s) {} :=
  (faaddBody_of_takesSlot h.passes hslot).trans
    (collectPacket_of_bound (packetTaken_of_collects h k slots)
      (sequenceLost_of_inSequence h.inSequence k slots) (readyToAppend_notWaiting s k slots _)
      (bindProfile_of_bindsTo hbound k slots))

/-! ## FAADD step 7: the payload (R318) -/

/-- The payload would run past the frame buffer: Fatal OVERFLOW (R318). -/
theorem appendPayload_of_overflow {s : State} {k : Nat} {h : PacketHead} {flags : CmdFlags}
    (hover : s.config.frameBufBytes < s.fa.acc.toNat + payloadLen h) :
    appendPayload s k h flags =
      .done (geometryFatal s .overflowFatal .overflow 0 h.rtp.seq) .fatal flags :=
  if_pos hover

theorem faaddBody_of_overflow {s : State} {k : Nat} {slots : List Slot}
    {bound : Option (BitVec 8)} (h : collects s) (hslot : takesSlot s k slots)
    (hbound : bindsTo s bound)
    (hover : s.config.frameBufBytes < (startAcc s).toNat + (pktPayload s).length) :
    faaddBody s =
      .done (geometryFatal (readyToAppend s k slots bound) .overflowFatal .overflow 0 (pktSeq s))
        .fatal {} := by
  rw [← payloadLen_pktHead] at hover
  exact (faaddBody_of_bindsTo h hslot hbound).trans (appendPayload_of_overflow hover)

theorem appendPayload_of_fits {s : State} {k : Nat} {h : PacketHead} {flags : CmdFlags}
    (hk : k < s.config.nslots) (hpkt : 12 + h.headerLen + payloadLen h ≤ s.config.maxPktBytes)
    (hfits : s.fa.acc.toNat + payloadLen h ≤ s.config.frameBufBytes) :
    appendPayload s k h flags =
      if isEndOfFrame h.rtp then
        endOfFrame (payloadAppended s k h) k (payloadLen h) h.rtp.seq flags
      else .done (payloadAppended s k h) .appended flags := by
  have hread : memRead s .pkt (12 + h.headerLen) (payloadLen h) =
      some (s.spaceBytes .pkt (12 + h.headerLen) (payloadLen h)) :=
    memRead_eq_some.2 ⟨hpkt, rfl⟩
  have hroom : s.fa.acc.toNat + (s.spaceBytes .pkt (12 + h.headerLen) (payloadLen h)).length ≤
      (Space.frame k).size s.config := by
    rw [length_spaceBytes, Space.size, if_pos hk]
    exact hfits
  have hwrite := memWrite_eq_some.2 ⟨hroom, rfl⟩
  simp only [appendPayload, if_neg (Nat.not_lt.2 hfits), hread, hwrite]
  rfl

/-- The state once the payload of the packet in PKT is stored in slot `k`'s frame buffer (R318). -/
def payloadStored (s : State) (k : Nat) (slots : List Slot) (bound : Option (BitVec 8)) : State :=
  { s with
    slots, fa := appendedTo s k bound
    mem := memSetAll s.mem ((Space.frame k).base + (startAcc s).toNat) (pktPayload s) }

theorem payloadAppended_readyToAppend (s : State) (k : Nat) (slots : List Slot)
    (bound : Option (BitVec 8)) :
    payloadAppended (readyToAppend s k slots bound) k (pktHead s) =
      payloadStored s k slots bound := by
  rw [payloadStored, appendedTo, ← payloadLen_pktHead]
  rfl

/-- A packet that fits is appended, and its marker ends the frame (R318). -/
theorem faaddBody_of_fits {s : State} {k : Nat} {slots : List Slot} {bound : Option (BitVec 8)}
    (h : collects s) (hslot : takesSlot s k slots) (hbound : bindsTo s bound)
    (hfits : (startAcc s).toNat + (pktPayload s).length ≤ s.config.frameBufBytes) :
    faaddBody s =
      if pktMarker s then
        endOfFrame (payloadStored s k slots bound) k (pktPayload s).length (pktSeq s) {}
      else .done (payloadStored s k slots bound) .appended {} := by
  obtain ⟨-, hmax, -, -, hheader⟩ := h.passes
  obtain ⟨hk, -⟩ := id hslot
  have hpkt : 12 + (pktHead s).headerLen + payloadLen (pktHead s) ≤ s.config.maxPktBytes := by
    unfold payloadLen pktHead
    dsimp only
    omega
  rw [← payloadLen_pktHead] at hfits
  rw [faaddBody_of_bindsTo h hslot hbound,
    appendPayload_of_fits (s := readyToAppend s k slots bound) hk hpkt hfits,
    payloadAppended_readyToAppend, payloadLen_pktHead]
  exact if_congr (by rw [← isEndOfFrame_pktRtp]; rfl) rfl rfl

/-- FAADD completes in a state whose memory is `s`'s with a list of bytes stored. -/
theorem answersWithBytes_of_stored {s t : State} {b : Nat} {bs : List Byte} {code : Status}
    {flags : CmdFlags} (hfatal : s.fatal = none) (hbody : faaddBody s = .done t code flags)
    (hmem : t.mem = memSetAll s.mem b bs) (hepoch : t.epoch = s.epoch) :
    answersWithBytes .faadd s { completeIngest t code flags with mem := s.mem }
      (bytesStored s b bs) := by
  refine ⟨completeIngest t code flags, ?_, rfl, fun a => ?_⟩
  · rw [exec_of_ingest rfl]
    exact runIngest_of_done hfatal hbody
  · exact (byteAt_congr (s := { s with mem := memSetAll s.mem b bs }) hmem hepoch a).trans
      (byteAt_memSetAll s b bs a)

/-- Settles O41: an unmarked packet that fits is stored, and FAADD completes. -/
theorem faaddAppends : Obligations.FaaddAppends := by
  intro s k slots bound hcollects hslot hbound hfits hmarker
  have hbody := faaddBody_of_fits hcollects hslot hbound hfits
  rw [hmarker] at hbody
  exact answersWithBytes_of_stored hcollects.passes.notFatal hbody rfl rfl

/-! ## FAADD step 8: the end of a frame (R319, R320) -/

section

variable {s : State} {k plen : Nat} {q : Seq} {flags : CmdFlags} {index : BitVec 8} {p : Profile}

/-- The marker finds a frame too short, or too long by the marker packet's payload: Fatal LENGTH
(R319). -/
theorem endOfFrame_of_wrongLength (hindex : s.fa.profile = some index)
    (hp : s.config.profileTable[index.toNat]? = some p)
    (hwrong : s.fa.acc.toNat < p.transportFrameSizeBytes ∨
      p.transportFrameSizeBytes + plen ≤ s.fa.acc.toNat) :
    endOfFrame s k plen q flags =
      .done (geometryFatal s .lengthFatal .length 0 q) .fatal flags := by
  have hbad : s.fa.acc.toNat < p.transportFrameSizeBytes ∨
      plen ≤ s.fa.acc.toNat - p.transportFrameSizeBytes := by omega
  simp only [endOfFrame, hindex, hp, if_pos hbad]

theorem endOfFrame_of_rightLength (hindex : s.fa.profile = some index)
    (hp : s.config.profileTable[index.toNat]? = some p) {padding : Nat}
    (hacc : s.fa.acc.toNat = p.transportFrameSizeBytes + padding) (hlt : padding < plen) :
    endOfFrame s k plen q flags = .done (frameCompleted s k index p) .complete flags := by
  have hgood : ¬ (s.fa.acc.toNat < p.transportFrameSizeBytes ∨
      plen ≤ s.fa.acc.toNat - p.transportFrameSizeBytes) := by omega
  simp only [endOfFrame, hindex, hp, if_neg hgood, frameCompleted]

end

/-- Publish, over the slot as it stands (R320). -/
theorem publish_eq {s : State} {k : Nat} {x : Slot} (hx : s.slots[k]? = some x)
    (index : BitVec 8) (p : Profile) :
    publish s k index p =
      { s with
        slots :=
          s.slots.set k
            { state := .ready, profile := index, padding := s.fa.padding, dual := p.multiplexed
              demuxed := false, gen := x.gen + 1 }
        ready := s.ready ++ frameTokens k p.multiplexed (x.gen + 1) } := by
  rw [publish, modifySlot, List.modify_eq_set_getElem?, nextGen, hx]
  rfl

/-- Settles O42: the frame's length is right, so its marker publishes it. -/
theorem faaddCompletesTheFrame : Obligations.FaaddCompletesTheFrame := by
  intro s k slots x index p padding hcollects hslot hbound hfits hmarker hp hx hacc hlt
  have hbody := faaddBody_of_fits hcollects hslot hbound hfits
  have hpadding :
      (appendedTo s k (some index)).acc.toNat - p.transportFrameSizeBytes = padding := by
    rw [hacc, Nat.add_sub_cancel_left]
  rw [hmarker, if_pos rfl,
    endOfFrame_of_rightLength (s := payloadStored s k slots (some index)) rfl hp hacc hlt,
    frameCompleted, publish_eq (x := x) hx] at hbody
  rw [← hpadding]
  exact answersWithBytes_of_stored hcollects.passes.notFatal hbody rfl rfl

/-- Settles O43: each failure of steps 6, 7 and 8 completes with what was written before it. -/
theorem faaddRaisesFatal : Obligations.FaaddRaisesFatal := by
  intro s k slots hcollects hslot
  refine ⟨fun st hcount hnone hres => ?profile, fun bound hbound hover => ?overflow,
    fun index p hbound hfits hmarker hp hwrong => ?length⟩
  case profile =>
    rw [exec_of_ingest rfl]
    exact runIngest_of_done hcollects.passes.notFatal
      (faaddBody_of_unresolved hcollects hslot hcount hnone hres)
  case overflow =>
    rw [exec_of_ingest rfl]
    exact runIngest_of_done hcollects.passes.notFatal
      (faaddBody_of_overflow hcollects hslot hbound hover)
  case length =>
    have hbody := faaddBody_of_fits hcollects hslot hbound hfits
    rw [hmarker, if_pos rfl,
      endOfFrame_of_wrongLength (s := payloadStored s k slots (some index)) rfl hp hwrong,
      geometryFatal_eq] at hbody
    exact answersWithBytes_of_stored hcollects.passes.notFatal hbody rfl rfl

end Sys2Proof.Machine
end

section
/-! SUPPORT. The statements about MBNEXT (R370), MBTYPE (R371) and MBRELEASE (R386), and what a
valid token and its buffer type are, bit by bit (R151, R380). -/

namespace Sys2Proof.Machine

open Sys2Proof

/-! ## MBNEXT and the buffer type (R151, R370) -/

/-- The buffer type is PART at [3:2] over KIND at [1:0] (R151). -/
theorem bufferType_eq_or (t : Word) :
    bufferType t =
      (t.extractLsb' 10 2).setWidth 32 <<< 2 ||| (t.extractLsb' 8 2).setWidth 32 := by
  have hjoin : ∀ part kind : BitVec 2,
      (part ++ kind).setWidth 32 = part.setWidth 32 <<< 2 ||| kind.setWidth 32 := by decide
  exact hjoin _ _

/-- Settles O53: MBNEXT by the ready queue. -/
theorem mbnextTakesTheHead : Obligations.MbnextTakesTheHead := by
  intro s hfatal
  refine ⟨fun hempty => ?hold, fun w rest hready => ?head⟩
  case hold =>
    have hbody : mbnextBody s = .hold := by rw [mbnextBody, hempty]
    rw [exec_of_consumer rfl]
    exact runConsumer_of_hold hfatal hbody
  case head =>
    rw [← bufferType_eq_or]
    exact exec_mbnext_cons hfatal hready

/-! ## MBTYPE and valid tokens (R371, R380) -/

/-- The codes 0, 1 and 2 are the kinds and the parts there are (R150). -/
theorem toNat_le_two_iff_ne_three (v : BitVec 2) : v.toNat ≤ 2 ↔ v ≠ 3 := by
  revert v
  decide

theorem mbtypeBody_of_valid {s : State} (h : validToken s s.con.ca0 = true) :
    mbtypeBody s =
      .done { s with con := { s.con with cr1 := bufferType s.con.ca0 } } .ok {} :=
  if_pos h

theorem mbtypeBody_of_invalid {s : State} (h : ¬validToken s s.con.ca0 = true) :
    mbtypeBody s = .done s .badToken {} :=
  if_neg h

/-- Settles O54: R380 over the bits, the fields of a token, and MBTYPE by the token's validity. -/
theorem mbtypeGivesTheType : Obligations.MbtypeGivesTheType := by
  refine ⟨fun s t => ?valid, fun t => ⟨rfl, rfl, rfl⟩, ⟨rfl, rfl, rfl, rfl, rfl, rfl⟩,
    fun k kind part gen hk => ?made, fun s hfatal => ?mbtype⟩
  case valid =>
    simp only [toNat_le_two_iff_ne_three]
    exact validToken_iff
  case made =>
    obtain ⟨-, hkind, hpart, hreserved, hgen⟩ := extract_mkToken k kind part gen
    exact ⟨tokenSlot_mkToken hk kind part gen, hkind, hpart, hreserved, hgen⟩
  case mbtype =>
    rw [exec_of_consumer rfl, ← bufferType_eq_or]
    split
    case isTrue hvalid => exact runConsumer_of_done hfatal (mbtypeBody_of_valid hvalid)
    case isFalse hinvalid => exact runConsumer_of_done hfatal (mbtypeBody_of_invalid hinvalid)

/-! ## MBRELEASE (R386) -/

/-- A change of a slot that is there, as the slot put in its place. -/
theorem modifySlot_eq_set {slots : List Slot} {k : Nat} {x : Slot} (hx : slots[k]? = some x)
    (f : Slot → Slot) : modifySlot slots k f = slots.set k (f x) := by
  rw [modifySlot, List.modify_eq_set_getElem?, hx]
  rfl

theorem mbreleaseBody_of_notReady {s : State}
    (h : ¬∃ x, s.slots[s.con.ca0.toNat]? = some x ∧ x.state = .ready) :
    mbreleaseBody s = .done s .badSlot {} := by
  unfold mbreleaseBody
  dsimp only
  split
  next => rfl
  next x hx => exact if_neg fun hready => h ⟨x, hx, hready.2⟩

theorem mbreleaseBody_of_ready {s : State} {x : Slot} (hk : s.con.ca0.toNat < s.config.nslots)
    (hx : s.slots[s.con.ca0.toNat]? = some x) (hready : x.state = .ready) :
    mbreleaseBody s =
      .done
        { s with
          slots := s.slots.set s.con.ca0.toNat { x with state := .free }
          ready := s.ready.filter fun w => decide (tokenSlot w ≠ s.con.ca0.toNat) }
        .ok {} := by
  rw [mbreleaseBody, modifySlot_eq_set hx, hx]
  exact if_pos ⟨hk, hready⟩

/-- Settles O55: MBRELEASE by the slot CA0 names. -/
theorem mbreleaseFreesTheSlot : Obligations.MbreleaseFreesTheSlot := by
  intro s hfatal hcount
  rw [exec_of_consumer rfl]
  refine ⟨fun hnone => ?badSlot, fun x hx hready => ?freed⟩
  case badSlot => exact runConsumer_of_done hfatal (mbreleaseBody_of_notReady hnone)
  case freed =>
    have hk : s.con.ca0.toNat < s.config.nslots :=
      hcount ▸ (List.getElem?_eq_some_iff.1 hx).1
    exact runConsumer_of_done hfatal (mbreleaseBody_of_ready hk hx hready)

end Sys2Proof.Machine
end

section
/-! SUPPORT. The spaces of a configuration the model gives a meaning to do not overlap, and what the
demux (R382) makes of the words of the halves and of every other byte. -/

namespace Sys2Proof.Machine

open Sys2Proof

/-! ## Spaces do not overlap (R100, R101) -/

/-- Every space fits the 2^24 bytes of its window (00_scope.md §4). -/
theorem size_le_of_wf {c : Config} (h : c.wf = true) (sp : Space) : sp.size c ≤ 2 ^ 24 := by
  simp only [Config.wf, Config.rangesOk, Bool.and_eq_true, decide_eq_true_eq] at h
  cases sp with
  | pkt => simp only [Space.size]; omega
  | work => simp only [Space.size]; omega
  | out => simp only [Space.size]; omega
  | frame k => simp only [Space.size]; split <;> omega
  | halfA k => simp only [Space.size]; split <;> omega
  | halfB k => simp only [Space.size]; split <;> omega

theorem not_inSpace_of_window_ne {c : Config} {sp sp' : Space} {a : Nat} (hwf : c.wf = true)
    (hne : sp.window ≠ sp'.window) (h : inSpace c sp a) : ¬inSpace c sp' a := by
  have hsize := size_le_of_wf hwf sp
  have hsize' := size_le_of_wf hwf sp'
  unfold inSpace Space.base at *
  omega

/-- A word inside a space depends on the bytes of that space alone. -/
theorem getWord_eq_of_byteAt_eq {s t : State} {c : Config} {sp : Space} {i : Nat}
    (hi : wordByte i + 1 < sp.size c) (h : ∀ a, inSpace c sp a → t.byteAt a = s.byteAt a) :
    getWord t sp i = getWord s sp i :=
  getWord_congr (h _ (inSpace_base_add (by omega))) (h _ (inSpace_base_add hi))

/-- SetWord in one space leaves the words of another alone. -/
theorem getWord_setWord_of_window_ne {s : State} {c : Config} {sp sp' : Space} {i j : Nat}
    (hwf : c.wf = true) (hne : sp.window ≠ sp'.window) (hi : wordByte i + 1 < sp'.size c)
    (hj : wordByte j + 1 < sp.size c) (v : BitVec 10) :
    getWord (setWord s sp' i v) sp j = getWord s sp j := by
  refine getWord_eq_of_byteAt_eq hj fun a ha => ?_
  have hout := not_inSpace_of_window_ne hwf hne ha
  refine byteAt_setWord_of_ne v ?_ ?_
  · rintro rfl
    exact hout (inSpace_base_add (by omega))
  · rintro rfl
    exact hout (inSpace_base_add hi)

theorem window_halfA_ne_halfB (k : Nat) : (Space.halfA k).window ≠ (Space.halfB k).window := by
  simp only [Space.window]
  omega

/-! ## The bytes the demux leaves alone (R382) -/

/-- A block address outside the first `n` bytes of both half-frame buffers of slot `k`. -/
def outsideHalves (k n a : Nat) : Prop :=
  (∀ o < n, a ≠ (Space.halfA k).base + o) ∧ ∀ o < n, a ≠ (Space.halfB k).base + o

theorem outsideHalves_of_not_inSpace {c : Config} {k a : Nat} (hA : ¬inSpace c (.halfA k) a)
    (hB : ¬inSpace c (.halfB k) a) : outsideHalves k ((Space.halfA k).size c) a := by
  refine ⟨fun o ho => ?_, fun o ho => ?_⟩
  · rintro rfl
    exact hA (inSpace_base_add ho)
  · rintro rfl
    exact hB (inSpace_base_add ho)

/-- The words of `count` groups lie in the first `5 * count / 2` bytes of a half (R382). -/
theorem wordByte_half_lt {i count n : Nat} (hi : i < 2 * count) (h : 5 * count ≤ 2 * n) :
    wordByte i + 1 < n := by
  unfold wordByte
  omega

theorem byteAt_demuxGroup_of_outside {s : State} {k g n a : Nat} (hn : 5 * (g + 1) ≤ 2 * n)
    (ha : outsideHalves k n a) : (demuxGroup s k g).byteAt a = s.byteAt a := by
  obtain ⟨hA, hB⟩ := ha
  obtain ⟨hfirst, hsecond⟩ := wordByte_group_lt hn
  rw [demuxGroup, storeGroup,
    byteAt_setWord_of_ne _ (hB _ (by omega)) (hB _ hsecond),
    byteAt_setWord_of_ne _ (hB _ (by omega)) (hB _ hfirst),
    byteAt_setWord_of_ne _ (hA _ (by omega)) (hA _ hsecond),
    byteAt_setWord_of_ne _ (hA _ (by omega)) (hA _ hfirst)]

theorem byteAt_demuxGroups_of_outside {s : State} {k count n a : Nat} (hn : 5 * count ≤ 2 * n)
    (ha : outsideHalves k n a) : (demuxGroups s k count).byteAt a = s.byteAt a := by
  induction count with
  | zero => rfl
  | succ g ih => exact (byteAt_demuxGroup_of_outside hn ha).trans (ih (by omega))

/-- The demux reads each group as the frame held it before (R382). -/
theorem groupWord_demuxGroups {s : State} {k count g j : Nat} (hwf : s.config.wf = true)
    (hhalf : 5 * count ≤ 2 * (Space.halfA k).size s.config)
    (hframe : 5 * (g + 1) ≤ (Space.frame k).size s.config) (hj : j < 4) :
    groupWord (demuxGroups s k count) k g j = groupWord s k g j := by
  have hin : wordByte (4 * g + j) + 1 < (Space.frame k).size s.config := by
    unfold wordByte
    omega
  refine getWord_eq_of_byteAt_eq hin fun a ha => byteAt_demuxGroups_of_outside hhalf ?_
  refine outsideHalves_of_not_inSpace ?_ ?_
  · exact not_inSpace_of_window_ne hwf (by simp only [Space.window]; omega) ha
  · exact not_inSpace_of_window_ne hwf (by simp only [Space.window]; omega) ha

/-! ## The words of the halves (R382) -/

/-- The two words of group `g` of a half stored (R382). -/
def setPair (s : State) (sp : Space) (g : Nat) (v0 v1 : BitVec 10) : State :=
  setWord (setWord s sp (2 * g) v0) sp (2 * g + 1) v1

theorem storeGroup_eq_setPair (s : State) (k g : Nat) (a0 a1 b0 b1 : BitVec 10) :
    storeGroup s k g a0 a1 b0 b1 = setPair (setPair s (.halfA k) g a0 a1) (.halfB k) g b0 b1 := rfl

theorem getWord_setPair (s : State) (sp : Space) (g i : Nat) (v0 v1 : BitVec 10) :
    getWord (setPair s sp g v0 v1) sp i =
      if i / 2 = g then (if i % 2 = 0 then v0 else v1) else getWord s sp i := by
  rw [setPair]
  split
  case isTrue hgroup =>
    split
    case isTrue hfirst =>
      obtain rfl : i = 2 * g := by omega
      rw [getWord_setWord_of_ne _ _ (by omega), getWord_setWord_self]
    case isFalse hsecond =>
      obtain rfl : i = 2 * g + 1 := by omega
      rw [getWord_setWord_self]
  case isFalse hother =>
    rw [getWord_setWord_of_ne _ _ (by omega), getWord_setWord_of_ne _ _ (by omega)]

theorem getWord_setPair_of_window_ne {s : State} {c : Config} {sp sp' : Space} {g i : Nat}
    (hwf : c.wf = true) (hne : sp.window ≠ sp'.window) (hg : 5 * (g + 1) ≤ 2 * sp'.size c)
    (hi : wordByte i + 1 < sp.size c) (v0 v1 : BitVec 10) :
    getWord (setPair s sp' g v0 v1) sp i = getWord s sp i := by
  obtain ⟨hfirst, hsecond⟩ := wordByte_group_lt hg
  rw [setPair, getWord_setWord_of_window_ne hwf hne hsecond hi,
    getWord_setWord_of_window_ne hwf hne hfirst hi]

/-- The halves of slot `k`, each with the two lanes of a group that go to it by DEMUX_PATTERN. -/
inductive HalfOf (c : Config) (k : Nat) : Space → Nat × Nat → Prop where
  | halfA : HalfOf c k (.halfA k) (groupA c.demuxPattern)
  | halfB : HalfOf c k (.halfB k) (groupB c.demuxPattern)

theorem HalfOf.lanes_lt {c : Config} {k : Nat} {sp : Space} {lanes : Nat × Nat}
    (h : HalfOf c k sp lanes) : lanes.1 < 4 ∧ lanes.2 < 4 := by
  cases h with
  | halfA => cases c.demuxPattern <;> decide
  | halfB => cases c.demuxPattern <;> decide

theorem HalfOf.size_eq {c : Config} {k : Nat} {sp : Space} {lanes : Nat × Nat}
    (h : HalfOf c k sp lanes) : sp.size c = (Space.halfA k).size c := by
  cases h <;> rfl

theorem HalfOf.window_ne_out {c : Config} {k : Nat} {sp : Space} {lanes : Nat × Nat}
    (h : HalfOf c k sp lanes) : sp.window ≠ Space.out.window := by
  cases h <;> simp only [Space.window] <;> omega

/-- Word `i` of a half: of group `i / 2`, the first or the second of the half's lanes. -/
def splitWord (s : State) (k : Nat) (lanes : Nat × Nat) (i : Nat) : BitVec 10 :=
  if i % 2 = 0 then groupWord s k (i / 2) lanes.1 else groupWord s k (i / 2) lanes.2

theorem splitWord_even (s : State) (k : Nat) (lanes : Nat × Nat) (g : Nat) :
    splitWord s k lanes (2 * g) = getWord s (.frame k) (4 * g + lanes.1) := by
  rw [splitWord, if_pos (by omega), show 2 * g / 2 = g by omega, groupWord]

theorem splitWord_odd (s : State) (k : Nat) (lanes : Nat × Nat) (g : Nat) :
    splitWord s k lanes (2 * g + 1) = getWord s (.frame k) (4 * g + lanes.2) := by
  rw [splitWord, if_neg (by omega), show (2 * g + 1) / 2 = g by omega, groupWord]

/-- One group's words go to their half; the groups before it keep theirs (R382). -/
theorem getWord_demuxGroup {s : State} {k g i : Nat} {sp : Space} {lanes : Nat × Nat}
    (hwf : s.config.wf = true) (hsp : HalfOf s.config k sp lanes)
    (hg : 5 * (g + 1) ≤ 2 * (Space.halfA k).size s.config) (hi : i < 2 * (g + 1)) :
    getWord (demuxGroup s k g) sp i =
      if i / 2 = g then splitWord s k lanes i else getWord s sp i := by
  have hin := wordByte_half_lt hi hg
  rw [demuxGroup, storeGroup_eq_setPair]
  cases hsp with
  | halfA =>
    rw [getWord_setPair_of_window_ne hwf (window_halfA_ne_halfB k) hg hin, getWord_setPair]
    exact ite_congr rfl (fun hgroup => by rw [splitWord, hgroup]) fun _ => rfl
  | halfB =>
    rw [getWord_setPair, getWord_setPair_of_window_ne hwf (window_halfA_ne_halfB k).symm hg hin]
    exact ite_congr rfl (fun hgroup => by rw [splitWord, hgroup]) fun _ => rfl

/-- The words of the halves once the first `count` groups are split (R382). -/
theorem getWord_demuxGroups {s : State} {k count i : Nat} {sp : Space} {lanes : Nat × Nat}
    (hwf : s.config.wf = true) (hsp : HalfOf s.config k sp lanes)
    (hhalf : 5 * count ≤ 2 * (Space.halfA k).size s.config)
    (hframe : 5 * count ≤ (Space.frame k).size s.config) (hi : i < 2 * count) :
    getWord (demuxGroups s k count) sp i = splitWord s k lanes i := by
  induction count with
  | zero => exact absurd hi (Nat.not_lt_zero i)
  | succ g ih =>
    have hlast := getWord_demuxGroup (s := demuxGroups s k g) (g := g) (i := i) (k := k)
      (sp := sp) (lanes := lanes)
    rw [demuxGroups_config] at hlast
    rw [demuxGroups, hlast hwf hsp hhalf hi]
    split
    case isTrue hgroup =>
      obtain ⟨hlane, hlane'⟩ := hsp.lanes_lt
      unfold splitWord
      rw [hgroup, groupWord_demuxGroups hwf (by omega) hframe hlane,
        groupWord_demuxGroups hwf (by omega) hframe hlane']
    case isFalse hbefore => exact ih (by omega) (by omega) (by omega)

end Sys2Proof.Machine
end

section
/-! SUPPORT. MBEXTRACT (R381) by its cases: which demux is due (R382), when an extraction writes
nothing to OUT (R383), and the picture it writes there otherwise (R384). The statements follow. -/

namespace Sys2Proof.Machine

open Sys2Proof

/-! ## The demux that is due (R381, R382) -/

/-- The state once the whole frame of slot `k`, which is `x`, is split (R382). -/
def frameSplit (s : State) (k : Nat) (x : Slot) (p : Profile) : State :=
  { s with
    mem := (demuxGroups s k (p.transportFrameSizeBytes / 5)).mem
    slots := s.slots.set k { x with demuxed := true } }

theorem byteAt_frameSplit (s : State) (k : Nat) (x : Slot) (p : Profile) (a : Nat) :
    (frameSplit s k x p).byteAt a =
      (demuxGroups s k (p.transportFrameSizeBytes / 5)).byteAt a :=
  byteAt_congr (s := demuxGroups s k _) (t := frameSplit s k x p) rfl
    (by rw [demuxGroups_eq]; rfl) a

theorem demuxFor_of_notDue {s : State} {w : Word} {x : Slot} (p : Profile)
    (h : tokenPart w = partFull ∨ x.demuxed = true) : demuxFor s w x p = some s := by
  refine if_neg ?_
  rintro ⟨hpart, hclear⟩
  simp [hpart, hclear] at h

section

variable {s s1 : State} {w : Word} {x : Slot} {p : Profile}

theorem tokenRecord_of_lookup (h : FrameInv s) (hvalid : validToken s w = true)
    (hx : s.slots[tokenSlot w]? = some x)
    (hp : s.config.profileTable[x.profile.toNat]? = some p) : TokenRecord s w x p := by
  obtain ⟨p', hp', hrecord⟩ := tokenRecord_of_valid h hvalid hx
  cases hp.symm.trans hp'
  exact hrecord

/-- The bounds of the demux (R100, R382). -/
theorem TokenRecord.demux_fits (h : TokenRecord s w x p) (hpart : tokenPart w ≠ partFull) :
    p.transportFrameSizeBytes ≤ (Space.frame (tokenSlot w)).size s.config ∧
      p.transportFrameSizeBytes ≤ 2 * (Space.halfA (tokenSlot w)).size s.config := by
  rw [Space.size, Space.size, if_pos h.slotThere, if_pos h.slotThere]
  exact ⟨h.frameFits, (h.halvesFit hpart).2⟩

theorem TokenRecord.demuxFor_of_due (h : TokenRecord s w x p)
    (hx : s.slots[tokenSlot w]? = some x) (hpart : tokenPart w ≠ partFull)
    (hclear : x.demuxed = false) :
    Machine.demuxFor s w x p = some (frameSplit s (tokenSlot w) x p) := by
  obtain ⟨hframe, hhalf⟩ := h.demux_fits hpart
  refine (if_pos ⟨hpart, hclear⟩).trans (demux_eq_some.2 ⟨hframe, hhalf, ?_⟩)
  rw [demuxGroups_eq, modifySlot_eq_set hx]
  rfl

theorem con_of_demuxFor (h : demuxFor s w x p = some s1) : s1.con = s.con := by
  obtain rfl | ⟨m, rfl⟩ := demuxFor_eq_some h <;> rfl

theorem epoch_of_demuxFor (h : demuxFor s w x p = some s1) : s1.epoch = s.epoch := by
  obtain rfl | ⟨m, rfl⟩ := demuxFor_eq_some h <;> rfl

/-- A byte outside the addresses stored at keeps its value. -/
theorem StoresIn.byteAt_eq_of_not {P : Nat → Prop} {t : State} {a : Nat}
    (h : StoresIn P s.mem t.mem) (hepoch : t.epoch = s.epoch) (ha : ¬P a) :
    t.byteAt a = s.byteAt a := by
  simp only [State.byteAt, h.memGet_of_not ha, hepoch]

theorem byteAt_of_demuxFor {a : Nat} (h : demuxFor s w x p = some s1)
    (ha : ¬inHalves s.config (tokenSlot w) a) : s1.byteAt a = s.byteAt a :=
  (stores_of_demuxFor h).byteAt_eq_of_not (epoch_of_demuxFor h) ha

/-! ## MBEXTRACT by its cases (R381, R383) -/

theorem mbextractBody_of_invalid (h : validToken s s.con.ca0 = false) :
    mbextractBody s = extractNothing s .badToken := by
  simp [mbextractBody, h]

theorem mbextractBody_of_valid (hvalid : validToken s s.con.ca0 = true)
    (hx : s.slots[tokenSlot s.con.ca0]? = some x)
    (hp : s.config.profileTable[x.profile.toNat]? = some p)
    (hdemux : demuxFor s s.con.ca0 x p = some s1) :
    mbextractBody s =
      if tokenKind s.con.ca0 ≠ kindVideo then extractNothing s1 .unsupported
      else extractVideo s1 s.con.ca0 p := by
  simp only [mbextractBody, hvalid, if_true, hx, hp, hdemux]

/-- The extraction of a valid token that writes nothing to OUT, and its status: a kind that extracts
nothing (R383), or an output too short for the picture (R381). -/
def TurnedAway (s : State) (p : Profile) (code : Status) : Prop :=
  (tokenKind s.con.ca0 ≠ kindVideo ∧ code = .unsupported) ∨
    (tokenKind s.con.ca0 = kindVideo ∧ code = .tooSmall ∧
      (s.con.ca1.toNat < p.activeHeight * p.activeWidthBytes ∨
        s.config.outBytes < p.activeHeight * p.activeWidthBytes))

theorem mbextractBody_of_turnedAway {code : Status} (hvalid : validToken s s.con.ca0 = true)
    (hx : s.slots[tokenSlot s.con.ca0]? = some x)
    (hp : s.config.profileTable[x.profile.toNat]? = some p)
    (hdemux : demuxFor s s.con.ca0 x p = some s1) (h : TurnedAway s p code) :
    mbextractBody s = extractNothing s1 code := by
  rw [mbextractBody_of_valid hvalid hx hp hdemux]
  obtain ⟨hkind, rfl⟩ | ⟨hkind, rfl, hshort⟩ := h
  · exact if_pos hkind
  · rw [if_neg (not_not.2 hkind)]
    rw [← con_of_demuxFor hdemux, ← config_of_demuxFor hdemux] at hshort
    exact if_pos hshort

/-! ## The picture in OUT (R384) -/

/-- The state once the picture's bytes are in OUT and its size in CR0 (R381). -/
def pictureStored (s : State) (p : Profile) (bs : List Byte) : State :=
  { s with
    mem := memSetAll s.mem Space.out.base bs
    con := { s.con with cr0 := BitVec.ofNat 32 (p.activeHeight * p.activeWidthBytes) } }

theorem byteAt_pictureStored (s : State) (p : Profile) (bs : List Byte) (a : Nat) :
    (pictureStored s p bs).byteAt a = bytesStored s Space.out.base bs a :=
  (byteAt_congr (s := { s with mem := memSetAll s.mem Space.out.base bs }) rfl rfl a).trans
    (byteAt_memSetAll s _ bs a)

theorem spaceByte_out_pictureStored (s : State) (p : Profile) {bs : List Byte} {o : Nat}
    (ho : o < bs.length) : (pictureStored s p bs).spaceByte .out o = bs.getD o 0 := by
  rw [State.spaceByte, byteAt_pictureStored, bytesStored, if_pos (by omega),
    Nat.add_sub_cancel_left]

theorem spaceByte_out_pictureStored_past (s : State) (p : Profile) {bs : List Byte} {o : Nat}
    (ho : bs.length ≤ o) : (pictureStored s p bs).spaceByte .out o = s.spaceByte .out o := by
  rw [State.spaceByte, byteAt_pictureStored, bytesStored, if_neg (by omega), State.spaceByte]

theorem byteAt_pictureStored_of_notOut {s : State} {c : Config} (p : Profile) {bs : List Byte}
    {a : Nat} (hfits : bs.length ≤ c.outBytes) (ha : ¬inSpace c .out a) :
    (pictureStored s p bs).byteAt a = s.byteAt a := by
  rw [byteAt_pictureStored, bytesStored, if_neg]
  rintro ⟨hlo, hhi⟩
  exact ha ⟨hlo, hhi.trans_le (Nat.add_le_add_left hfits _)⟩

/-! ## The lines of a picture (R384) -/

theorem line_of_progressive {p : Profile} (h : p.interlaced = false) (phase : FieldPhase)
    (j : Nat) : p.line phase j = p.field1First + j :=
  if_pos h

/-- The even output lines of an interlaced picture are of one field, the odd ones of the other
(R384). -/
theorem line_of_interlaced {p : Profile} (h : p.interlaced = true) (j : Nat) :
    p.line .phase0 (2 * j) = p.field1First + j ∧ p.line .phase0 (2 * j + 1) = p.field2First + j ∧
      p.line .phase1 (2 * j) = p.field2First + j ∧
      p.line .phase1 (2 * j + 1) = p.field1First + j := by
  have heven : 2 * j % 2 = 0 ∧ 2 * j / 2 = j := by omega
  have hodd : (2 * j + 1) % 2 = 1 ∧ (2 * j + 1 - 1) / 2 = j := by omega
  simp only [Profile.line, h, heven, hodd, Bool.true_eq_false, one_ne_zero, if_true, if_false,
    and_self]

/-- Byte `b` of line `i` of a picture read is byte `b` of the active part of its source line. -/
theorem getD_picture {sp : Space} {j count i b : Nat} {bs : List Byte}
    (h : picture s sp p j count = some bs) (hi : i < count) (hb : b < p.activeWidthBytes) :
    bs.getD (i * p.activeWidthBytes + b) 0 =
      s.spaceByte sp
        (p.line s.config.fieldPhase (j + i) * p.scanlineSizeBytes + p.xOffsetBytes + b) := by
  induction count generalizing j i bs with
  | zero => exact absurd hi (Nat.not_lt_zero i)
  | succ n ih =>
    unfold picture at h
    split at h
    next => cases h
    next line hline =>
      split at h
      next => cases h
      next rest hrest =>
        obtain rfl := Option.some.inj h
        obtain ⟨-, rfl⟩ := memRead_eq_some.1 hline
        cases i with
        | zero =>
          rw [Nat.zero_mul, Nat.zero_add, List.getD_append _ _ _ _ (by simpa using hb)]
          simp [State.spaceBytes, hb]
        | succ i =>
          rw [List.getD_append_right _ _ _ _ (by simp [Nat.succ_mul]; omega), length_spaceBytes,
            Nat.succ_mul, Nat.add_right_comm, Nat.add_sub_cancel, ih hrest (by omega),
            Nat.add_assoc j, Nat.add_comm 1]

theorem window_tokenSpace_ne_out (w : Word) : (tokenSpace w).window ≠ Space.out.window := by
  unfold tokenSpace
  split
  next => simp only [Space.window]; omega
  next => split <;> simp only [Space.window] <;> omega

/-- Every line of a token's picture is inside the buffer it is read from (R384). -/
theorem TokenRecord.line_fits (h : TokenRecord s w x p) (phase : FieldPhase) {j : Nat}
    (hj : j < p.activeHeight) :
    p.line phase j * p.scanlineSizeBytes + p.xOffsetBytes + p.activeWidthBytes ≤
      (tokenSpace w).size s.config :=
  (line_end_le_frameSizeBytes h.wf phase hj).trans h.frameSizeBytes_le

/-! ## A picture that fits the output (R381, R384) -/

theorem TokenRecord.extractVideo_of_fits (h : TokenRecord s w x p) (hconfig : s1.config = s.config)
    (hcap : p.activeHeight * p.activeWidthBytes ≤ s1.con.ca1.toNat)
    (hout : p.activeHeight * p.activeWidthBytes ≤ s1.config.outBytes) :
    ∃ bs, picture s1 (tokenSpace w) p 0 p.activeHeight = some bs ∧
      extractVideo s1 w p = .done (pictureStored s1 p bs) .ok {} := by
  obtain ⟨bs, hbs⟩ := picture_of_lines (s := s1) (sp := tokenSpace w) (p := p) (j := 0)
    (count := p.activeHeight) fun i hi => hconfig ▸ h.line_fits _ (by omega)
  have hwrite : memWrite s1 .out 0 bs =
      some { s1 with mem := memSetAll s1.mem Space.out.base bs } := by
    refine memWrite_eq_some.2 ⟨?_, rfl⟩
    rw [Nat.zero_add, length_of_picture hbs]
    exact hout
  have hfits : ¬(s1.con.ca1.toNat < p.activeHeight * p.activeWidthBytes ∨
      s1.config.outBytes < p.activeHeight * p.activeWidthBytes) := by omega
  refine ⟨bs, hbs, ?_⟩
  simp only [extractVideo, if_neg hfits, hbs, hwrite, pictureStored]

/-- Each output line is the active part of its source line, which OUT is no part of (R384). -/
theorem TokenRecord.spaceByte_line (h : TokenRecord s w x p) (hwf : s.config.wf = true)
    (hconfig : s1.config = s.config) {bs : List Byte}
    (hbs : picture s1 (tokenSpace w) p 0 p.activeHeight = some bs)
    (hout : bs.length ≤ s.config.outBytes) {j b : Nat} (hj : j < p.activeHeight)
    (hb : b < p.activeWidthBytes) :
    (pictureStored s1 p bs).spaceByte .out (j * p.activeWidthBytes + b) =
      (pictureStored s1 p bs).spaceByte (tokenSpace w)
        (p.line s.config.fieldPhase j * p.scanlineSizeBytes + p.xOffsetBytes + b) := by
  have hlast : j * p.activeWidthBytes + b < bs.length :=
    calc j * p.activeWidthBytes + b
        < (j + 1) * p.activeWidthBytes := by rw [Nat.succ_mul]; omega
      _ ≤ p.activeHeight * p.activeWidthBytes := Nat.mul_le_mul_right _ hj
      _ = bs.length := (length_of_picture hbs).symm
  have hsource := getD_picture hbs hj hb
  rw [hconfig, Nat.zero_add] at hsource
  have hin := inSpace_base_add
    ((Nat.add_lt_add_left hb _).trans_le (h.line_fits s.config.fieldPhase hj))
  have hnotOut := not_inSpace_of_window_ne hwf (window_tokenSpace_ne_out w) hin
  rw [spaceByte_out_pictureStored s1 p hlast, hsource]
  exact (byteAt_pictureStored_of_notOut p hout hnotOut).symm

/-- OUT is no part of the halves. -/
theorem not_inHalves_out {c : Config} (hwf : c.wf = true) (k : Nat) {o : Nat}
    (ho : o < c.outBytes) : ¬inHalves c k (Space.out.base + o) := by
  have hout := inSpace_base_add (c := c) (sp := .out) ho
  exact not_or.2 ⟨not_inSpace_of_window_ne hwf (by simp only [Space.window]; omega) hout,
    not_inSpace_of_window_ne hwf (by simp only [Space.window]; omega) hout⟩

/-- Every picture of the table fits OUT (R5). -/
theorem picture_le_outBytes {c : Config} {k : Nat} (h : c.wf = true)
    (hp : c.profileTable[k]? = some p) : p.activeHeight * p.activeWidthBytes ≤ c.outBytes := by
  obtain ⟨-, -, hall⟩ := buffersOk_iff.1 (buffersOk_of_wf h)
  exact hall p (List.mem_of_getElem? hp)

/-! ## MBEXTRACT of a valid token (R381, R383) -/

/-- MBEXTRACT of a valid Video token whose picture fits the output (R381). -/
theorem TokenRecord.exec_mbextract_of_fits (h : TokenRecord s s.con.ca0 x p)
    (hfatal : s.fatal = none) (hvalid : validToken s s.con.ca0 = true)
    (hx : s.slots[tokenSlot s.con.ca0]? = some x)
    (hp : s.config.profileTable[x.profile.toNat]? = some p)
    (hdemux : Machine.demuxFor s s.con.ca0 x p = some s1)
    (hkind : tokenKind s.con.ca0 = kindVideo)
    (hcap : p.activeHeight * p.activeWidthBytes ≤ s.con.ca1.toNat)
    (hout : p.activeHeight * p.activeWidthBytes ≤ s.config.outBytes) :
    ∃ bs, picture s1 (tokenSpace s.con.ca0) p 0 p.activeHeight = some bs ∧
      exec .mbextract s = .next (completeConsumer (pictureStored s1 p bs) .ok) := by
  rw [← con_of_demuxFor hdemux] at hcap
  rw [← config_of_demuxFor hdemux] at hout
  obtain ⟨bs, hbs, hvideo⟩ := h.extractVideo_of_fits (config_of_demuxFor hdemux) hcap hout
  refine ⟨bs, hbs, runConsumer_of_done (flags := {}) hfatal ?_⟩
  rw [mbextractBody_of_valid hvalid hx hp hdemux, if_neg (not_not.2 hkind), hvideo]

/-- A valid token's extraction completes, and after the demux that is due it writes at most OUT, CR0
and CSTAT (R381, R383). -/
theorem TokenRecord.exec_mbextract (h : TokenRecord s s.con.ca0 x p) (hfatal : s.fatal = none)
    (hvalid : validToken s s.con.ca0 = true) (hx : s.slots[tokenSlot s.con.ca0]? = some x)
    (hp : s.config.profileTable[x.profile.toNat]? = some p)
    (hdemux : Machine.demuxFor s s.con.ca0 x p = some s1) :
    ∃ t, exec .mbextract s = .next t ∧ t.slots = s1.slots ∧
      ∀ a, ¬inSpace s.config .out a → t.byteAt a = s1.byteAt a := by
  by_cases haway : ∃ code, TurnedAway s p code
  · obtain ⟨code, haway⟩ := haway
    exact ⟨_, runConsumer_of_done hfatal (mbextractBody_of_turnedAway hvalid hx hp hdemux haway),
      rfl, fun _ _ => rfl⟩
  · have hkind : tokenKind s.con.ca0 = kindVideo :=
      not_not.1 fun hkind => haway ⟨_, .inl ⟨hkind, rfl⟩⟩
    obtain ⟨hcap, hout⟩ := not_or.1 fun hshort => haway ⟨_, .inr ⟨hkind, rfl, hshort⟩⟩
    rw [Nat.not_lt] at hcap hout
    obtain ⟨bs, hbs, hexec⟩ :=
      h.exec_mbextract_of_fits hfatal hvalid hx hp hdemux hkind hcap hout
    exact ⟨_, hexec, rfl,
      fun a ha => byteAt_pictureStored_of_notOut p ((length_of_picture hbs).trans_le hout) ha⟩

/-! ## The words of the halves after an extraction (R382) -/

/-- The words of both halves are those of the frame, and stay so where only OUT is written since. -/
theorem TokenRecord.words_of_frameSplit {t : State} (h : TokenRecord s w x p)
    (hwf : s.config.wf = true) (hpart : tokenPart w ≠ partFull)
    (ht : ∀ a, ¬inSpace s.config .out a →
      t.byteAt a = (frameSplit s (tokenSlot w) x p).byteAt a)
    {sp : Space} {lanes : Nat × Nat} (hsp : HalfOf s.config (tokenSlot w) sp lanes) {i : Nat}
    (hi : i < 2 * (p.transportFrameSizeBytes / 5)) :
    getWord t sp i = splitWord s (tokenSlot w) lanes i := by
  obtain ⟨hframe, hhalf⟩ := h.demux_fits hpart
  have hin : wordByte i + 1 < sp.size s.config := by
    rw [hsp.size_eq]
    exact wordByte_half_lt hi (by omega)
  have hkept : getWord t sp i =
      getWord (demuxGroups s (tokenSlot w) (p.transportFrameSizeBytes / 5)) sp i :=
    getWord_eq_of_byteAt_eq hin fun a ha =>
      (ht a (not_inSpace_of_window_ne hwf hsp.window_ne_out ha)).trans (byteAt_frameSplit ..)
  rw [hkept, getWord_demuxGroups hwf hsp (by omega) (by omega) hi]

/-- The bytes past the T/2 of each half are left alone (R382). -/
theorem TokenRecord.byteAt_frameSplit_of_outside (h : TokenRecord s w x p)
    (hpart : tokenPart w ≠ partFull) {a : Nat}
    (ha : outsideHalves (tokenSlot w) (p.transportFrameSizeBytes / 2) a) :
    (frameSplit s (tokenSlot w) x p).byteAt a = s.byteAt a := by
  obtain ⟨hmul, -⟩ := h.halvesFit hpart
  have heven : p.transportFrameSizeBytes = p.frameSizeBytes * 2 := by
    rw [Profile.transportFrameSizeBytes, if_pos hmul]
  rw [byteAt_frameSplit]
  exact byteAt_demuxGroups_of_outside (by omega) ha

end

/-! ## The statements -/

/-- Settles O56: the three refusals, with no demux due and with one. -/
theorem mbextractTurnsAway : Obligations.MbextractTurnsAway := by
  intro s hfatal
  rw [exec_of_consumer rfl]
  refine ⟨fun hinvalid => ?badToken, fun x p hvalid hx hp hnotDue => ?notDue,
    fun k x p code hinv hvalid hk hx hp hpart hclear haway => ?due⟩
  case badToken => exact runConsumer_of_done hfatal (mbextractBody_of_invalid hinvalid)
  case notDue =>
    have hbody {code : Status} (haway : TurnedAway s p code) :=
      mbextractBody_of_turnedAway hvalid hx hp (demuxFor_of_notDue p hnotDue) haway
    exact ⟨fun hkind => runConsumer_of_done hfatal (hbody (.inl ⟨hkind, rfl⟩)),
      fun hkind hshort => runConsumer_of_done hfatal (hbody (.inr ⟨hkind, rfl, hshort⟩))⟩
  case due =>
    subst hk
    have hrecord := tokenRecord_of_lookup hinv.frame hvalid hx hp
    have hdemux := hrecord.demuxFor_of_due hx hpart hclear
    have hturned : TurnedAway s p code :=
      haway.imp_right fun ⟨hkind, hcode, hcap⟩ => ⟨hkind, hcode, .inl hcap⟩
    refine ⟨_, runConsumer_of_done hfatal
      (mbextractBody_of_turnedAway hvalid hx hp hdemux hturned), rfl, rfl, fun a hA hB => ?_⟩
    have hbyte := byteAt_of_demuxFor hdemux (not_or.2 ⟨hA, hB⟩)
    exact hbyte

/-- Settles O57: the quantities by definition, and the picture line by line. -/
theorem mbextractCopiesThePicture : Obligations.MbextractCopiesThePicture := by
  refine ⟨fun p => ⟨rfl, rfl, rfl, rfl, rfl⟩,
    fun p j => ⟨fun h phase => line_of_progressive h phase j, fun h => line_of_interlaced h j⟩,
    fun w => ?buffer,
    fun s x p hinv hfatal hvalid hkind hx hp hcap => ?picture⟩
  case buffer =>
    refine ⟨fun hpart => if_pos hpart, fun hpart => ?_, fun hpart => ?_⟩
    · exact (if_neg (by rw [tokenPart, hpart]; decide)).trans (if_pos hpart)
    · exact (if_neg (by rw [tokenPart, hpart]; decide)).trans
        (if_neg (by rw [tokenPart, hpart]; decide))
  case picture =>
    have hrecord := tokenRecord_of_lookup hinv.frame hvalid hx hp
    obtain ⟨s1, hdemux⟩ := hrecord.demuxFor
    have hconfig := config_of_demuxFor hdemux
    have hwf := hinv.frame.config
    have hout := picture_le_outBytes hwf hp
    obtain ⟨bs, hbs, hexec⟩ :=
      hrecord.exec_mbextract_of_fits hfatal hvalid hx hp hdemux hkind hcap hout
    have hlength := length_of_picture hbs
    have hfits := hlength.trans_le hout
    refine ⟨completeConsumer (pictureStored s1 p bs) .ok, hexec, ?con,
      fun j hj b hb => hrecord.spaceByte_line hwf hconfig hbs hfits hj hb,
      fun o ho hpast => ?past, fun hfull => ?full⟩
    case con =>
      rw [← con_of_demuxFor hdemux]
      rfl
    case past =>
      exact (spaceByte_out_pictureStored_past s1 p (hlength.trans_le hpast)).trans
        (byteAt_of_demuxFor hdemux (not_inHalves_out hwf _ ho))
    case full =>
      cases (demuxFor_of_notDue p (.inl hfull)).symm.trans hdemux
      exact ⟨rfl, fun a ha => byteAt_pictureStored_of_notOut p hfits ha⟩

/-- Settles O58: a set flag means no demux; a clear one the whole frame split, and OUT written after
it is no part of the frame or of a half. -/
theorem firstHalfExtractionDemuxes : Obligations.FirstHalfExtractionDemuxes := by
  intro s k x p hinv hfatal hvalid hpart hk hx hp
  subst hk
  have hrecord := tokenRecord_of_lookup hinv.frame hvalid hx hp
  cases hflag : x.demuxed with
  | true =>
    have hdemux := demuxFor_of_notDue (s := s) (w := s.con.ca0) p (.inr hflag)
    obtain ⟨t, hexec, hslots, hbytes⟩ :=
      hrecord.exec_mbextract hfatal hvalid hx hp hdemux
    have hsame : ({ x with demuxed := true } : Slot) = x := by rw [← hflag]
    refine ⟨t, hexec, ?_, nofun, fun a ha _ => hbytes a ha⟩
    obtain ⟨_, hget⟩ := List.getElem?_eq_some_iff.1 hx
    rw [hslots, hsame, ← hget, List.set_getElem_self]
  | false =>
    have hdemux := hrecord.demuxFor_of_due hx hpart hflag
    obtain ⟨t, hexec, hslots, hbytes⟩ :=
      hrecord.exec_mbextract hfatal hvalid hx hp hdemux
    refine ⟨t, hexec, hslots, fun _ g hg => ?words, fun a ha hout => ?bytes⟩
    case words =>
      have hword {sp : Space} {lanes : Nat × Nat} {i : Nat}
          (hsp : HalfOf s.config (tokenSlot s.con.ca0) sp lanes)
          (hi : i < 2 * (p.transportFrameSizeBytes / 5)) :=
        hrecord.words_of_frameSplit hinv.frame.config hpart hbytes hsp hi
      rw [hword .halfA (by omega), hword .halfA (by omega), hword .halfB (by omega),
        hword .halfB (by omega)]
      simp only [splitWord_even, splitWord_odd]
      cases s.config.demuxPattern with
      | abab => exact ⟨rfl, rfl, rfl, rfl⟩
      | aabb => exact ⟨rfl, rfl, rfl, rfl⟩
    case bytes =>
      rw [hbytes a ha]
      exact hrecord.byteAt_frameSplit_of_outside hpart (hout.resolve_left nofun)

end Sys2Proof.Machine
end

section
/-! SUPPORT. The protection switch: what an arrival, PSINIT and each path of PSREAD answer (R401 to
R420), and the statements on them. -/

namespace Sys2Proof.Machine

open Sys2Proof

/-! ## Arrivals (R401) -/

/-- Settles O46: an arrival by its length, then by the event queue, then into its leg's ring. -/
theorem arrivalIsStoredOrDropped : Obligations.ArrivalIsStoredOrDropped := by
  intro s l bytes time q hfatal hq
  subst hq
  have hperform : perform s (.arrive l bytes time) = .next (arrival s l bytes time) := rfl
  rw [hperform, arrival, hfatal, if_neg (by decide)]
  split
  case isTrue => rfl
  case isFalse =>
    dsimp only
    split
    case isTrue => rfl
    case isFalse => cases l <;> rfl

/-! ## PSINIT (R420) -/

/-- Settles O47: PSINIT has one end, and it completes. -/
theorem psinitResetsTheSwitch : Obligations.PsinitResetsTheSwitch := by
  intro s hfatal
  rw [exec_of_ingest rfl]
  exact runIngest_of_done (body := psinitBody) hfatal rfl

/-! ## The paths of PSREAD (R409) -/

theorem psreadBody_of_pending {s : State} (h : s.ps.pending ≠ 0) : psreadBody s = catchUp s :=
  if_pos h

theorem psreadBody_of_held {s : State} {h : HeldPacket} (hpending : s.ps.pending = 0)
    (hheld : s.ps.held = some h) : psreadBody s = deliverHeld s h := by
  simp only [psreadBody, if_neg (not_not.2 hpending), hheld]

theorem psreadBody_of_empty {s : State} (hpending : s.ps.pending = 0) (hheld : s.ps.held = none)
    (hevq : s.ps.evq = []) : psreadBody s = .hold := by
  simp only [psreadBody, if_neg (not_not.2 hpending), hheld, hevq]

theorem psreadBody_of_event {s : State} {e : ArrivalEvent} {rest : List ArrivalEvent}
    (hpending : s.ps.pending = 0) (hheld : s.ps.held = none) (hevq : s.ps.evq = e :: rest) :
    psreadBody s =
      handleEvent (liveness { s with ps.evq := rest } e.leg e.time).1 e
        { swap := (liveness { s with ps.evq := rest } e.leg e.time).2 } := by
  simp only [psreadBody, if_neg (not_not.2 hpending), hheld, hevq]

theorem exec_psread_of_done {s u : State} {code : Status} {flags : CmdFlags}
    (hfatal : s.fatal = none) (hbody : psreadBody s = .done u code flags) :
    exec .psread s = .next (completeIngest u code flags) := by
  rw [exec_of_ingest rfl]
  exact runIngest_of_done hfatal hbody

/-! ## Deliveries (R413) -/

theorem deliver_of_fits {s : State} {pkt : Packet} (l : Leg)
    (h : pkt.bytes.length ≤ s.config.maxPktBytes) : deliver s l pkt = some (delivered s l pkt) :=
  deliver_eq_some.2 ⟨h, rfl⟩

theorem deliverExpecting_of_fits {s : State} {pkt : Packet} (l : Leg) (next : Seq)
    (flags : CmdFlags) (h : pkt.bytes.length ≤ s.config.maxPktBytes) :
    deliverExpecting s l pkt next flags =
      .done { delivered s l pkt with ps.expected := some next } .delivered flags := by
  simp only [deliverExpecting, deliver_of_fits l h, delivered]

/-- The bytes of a state whose memory is `s`'s with a list of bytes stored. -/
theorem byteAt_of_stored {s t : State} {b : Nat} {bs : List Byte}
    (hmem : t.mem = memSetAll s.mem b bs) (hepoch : t.epoch = s.epoch) (a : Nat) :
    t.byteAt a = bytesStored s b bs a :=
  (byteAt_congr (s := { s with mem := memSetAll s.mem b bs }) hmem hepoch a).trans
    (byteAt_memSetAll s b bs a)

/-- PSREAD completes in a state whose memory is `s`'s with a packet stored in PKT. -/
theorem psread_answersWithBytes {s u : State} {bs : List Byte} {code : Status} {flags : CmdFlags}
    (hfatal : s.fatal = none) (hbody : psreadBody s = .done u code flags)
    (hmem : u.mem = memSetAll s.mem Space.pkt.base bs) (hepoch : u.epoch = s.epoch) :
    answersWithBytes .psread s { completeIngest u code flags with mem := s.mem }
      (bytesStored s Space.pkt.base bs) :=
  ⟨completeIngest u code flags, exec_psread_of_done hfatal hbody, rfl,
    byteAt_of_stored hmem hepoch⟩

/-! ## No gap: the held packet, or a hold (R410, R412) -/

theorem deliverHeld_of_fits {s : State} {h : HeldPacket}
    (hfits : h.packet.bytes.length ≤ s.config.maxPktBytes) :
    deliverHeld s h =
      .done
        { delivered s h.leg h.packet with
          ps.held := none, ps.expected := some (h.packet.seq + 1) }
        .delivered {} :=
  deliverExpecting_of_fits (s := { s with ps.held := none }) h.leg (h.packet.seq + 1) {} hfits

/-- Settles O48: with no gap pending PSREAD goes by the held packet, then by the event queue. -/
theorem psreadHoldsOrDeliversTheHeld : Obligations.PsreadHoldsOrDeliversTheHeld := by
  refine ⟨⟨rfl, rfl⟩, fun s hfatal hpending =>
    ⟨fun hheld hevq => ?hold, fun h hheld hfits => ?held⟩⟩
  case hold =>
    rw [exec_of_ingest rfl]
    exact runIngest_of_hold (body := psreadBody) hfatal (psreadBody_of_empty hpending hheld hevq)
  case held =>
    have hbody := (psreadBody_of_held hpending hheld).trans (deliverHeld_of_fits hfits)
    exact psread_answersWithBytes hfatal hbody rfl rfl

/-! ## A gap pending: catch-up (R411) -/

theorem catchUp_of_hit {s : State} {e : Seq} {pkt : Packet} (hexpected : s.ps.expected = some e)
    (hhit : lookup s (otherLeg s.ps.master) e = some pkt)
    (hfits : pkt.bytes.length ≤ s.config.maxPktBytes) :
    catchUp s = .done (gapFilled s e pkt) .delivered { repaired := true } := by
  simp only [catchUp, hexpected, hhit, deliver_of_fits _ hfits]
  rfl

theorem catchUp_of_miss {s : State} {e : Seq} {h : HeldPacket} (hexpected : s.ps.expected = some e)
    (hmiss : lookup s (otherLeg s.ps.master) e = none) (hheld : s.ps.held = some h) :
    catchUp s = .done (gapGivenUp s e h) .unrecoverable {} := by
  simp only [catchUp, hexpected, hmiss, hheld]
  rfl

/-- A packet a lookup hits has the sequence number looked up. -/
theorem seq_of_lookup {s : State} {l : Leg} {q : Seq} {pkt : Packet}
    (h : lookup s l q = some pkt) : pkt.seq = q := by
  obtain ⟨-, hseq⟩ := lookup_eq_some.1 h
  exact hseq

/-- Settles O49: catch-up by what the Secondary's ring holds of the expected sequence number. -/
theorem catchUpRepairsOrGivesUp : Obligations.CatchUpRepairsOrGivesUp := by
  intro s e sec hfatal hpending hexpected hsec
  obtain rfl := eq_otherLeg_of_ne hsec
  have hcatchUp := psreadBody_of_pending hpending
  refine ⟨fun pkt hhit hfits => ?repaired, fun h hmiss hheld => ?givenUp⟩
  case repaired =>
    have hbody := hcatchUp.trans (catchUp_of_hit hexpected hhit hfits)
    obtain rfl := seq_of_lookup hhit
    exact psread_answersWithBytes hfatal hbody rfl rfl
  case givenUp =>
    exact exec_psread_of_done hfatal (hcatchUp.trans (catchUp_of_miss hexpected hmiss hheld))

/-! ## A popped event: its packet (R415, R416) -/

theorem handleEvent_of_secondary {s : State} {e : ArrivalEvent} (flags : CmdFlags)
    (h : e.leg ≠ s.ps.master) : handleEvent s e flags = .done s .noData flags :=
  if_pos h

theorem handleEvent_of_miss {s : State} {e : ArrivalEvent} (flags : CmdFlags)
    (hmaster : e.leg = s.ps.master) (hmiss : lookup s e.leg e.seq = none) :
    handleEvent s e flags = .done (overrun s e.leg e.seq) .overrun flags := by
  simp only [handleEvent, if_neg (not_not.2 hmaster), hmiss]

theorem handleEvent_of_hit {s : State} {e : ArrivalEvent} {pkt : Packet} (flags : CmdFlags)
    (hmaster : e.leg = s.ps.master) (hhit : lookup s e.leg e.seq = some pkt) :
    handleEvent s e flags = classify s e.leg e.seq pkt flags := by
  simp only [handleEvent, if_neg (not_not.2 hmaster), hhit]

theorem classify_of_due {s : State} {q : Seq} (l : Leg) (pkt : Packet) (flags : CmdFlags)
    (h : s.ps.expected = none ∨ s.ps.expected = some q) :
    classify s l q pkt flags = deliverExpecting s l pkt (q + 1) flags := by
  obtain h | h := h <;> simp [classify, h]

theorem classify_of_behind {s : State} {x q : Seq} (l : Leg) (pkt : Packet) (flags : CmdFlags)
    (hexpected : s.ps.expected = some x) (hbehind : 2 ^ 15 ≤ (q - x).toNat) :
    classify s l q pkt flags = .done (dropDuplicate s l q) .duplicate flags := by
  have hne : q - x ≠ 0 := fun h => by simp [h] at hbehind
  simp only [classify, hexpected, if_neg hne, if_pos hbehind]

theorem classify_of_ahead {s : State} {x q : Seq} (l : Leg) (pkt : Packet) (flags : CmdFlags)
    (hexpected : s.ps.expected = some x) (hpos : 0 < (q - x).toNat)
    (hahead : (q - x).toNat < 2 ^ 15) :
    classify s l q pkt flags = .done (holdGap s l x q pkt) .packetLost flags := by
  have hne : q - x ≠ 0 := fun h => by simp [h] at hpos
  simp only [classify, hexpected, if_neg hne, if_neg (Nat.not_le.2 hahead)]

theorem liveness_epoch (s : State) (l : Leg) (t : Time) : (liveness s l t).1.epoch = s.epoch := by
  obtain ⟨-, h⟩ | ⟨-, h⟩ := liveness_eq s l t <;>
    exact congrArg (fun r => r.1.epoch) h

/-- Settles O51: the event by its leg, its packet by its entry, and that packet by its distance from
the expected one. -/
theorem psreadClassifiesTheEvent : Obligations.PsreadClassifiesTheEvent := by
  refine ⟨fun s l q pkt => ?lookup,
    fun s s1 swap e rest hfatal hpending hheld hevq hlive => ?event⟩
  case lookup => cases l <;> exact lookup_eq_some
  case event =>
    have hbody := psreadBody_of_event hpending hheld hevq
    have hepoch := liveness_epoch { s with ps.evq := rest } e.leg e.time
    obtain ⟨hconfig, hmem⟩ := liveness_config_mem { s with ps.evq := rest } e.leg e.time
    rw [hlive] at hbody hepoch hconfig hmem
    refine ⟨fun hsecondary => ?noData, fun hmaster hmiss => ?overrun,
      fun pkt hmaster hhit => ⟨fun hfits hdue => ?delivered,
        fun x hexpected => ⟨fun hbehind => ?duplicate, fun hpos hahead => ?packetLost⟩⟩⟩
    case noData =>
      exact exec_psread_of_done hfatal (hbody.trans (handleEvent_of_secondary _ hsecondary))
    case overrun =>
      exact exec_psread_of_done hfatal (hbody.trans (handleEvent_of_miss _ hmaster hmiss))
    case delivered =>
      rw [handleEvent_of_hit _ hmaster hhit, classify_of_due _ _ _ hdue,
        deliverExpecting_of_fits _ _ _ (hfits.trans_eq (congrArg _ hconfig.symm))] at hbody
      rw [← seq_of_lookup hhit] at hbody ⊢
      exact ⟨_, exec_psread_of_done hfatal hbody, rfl,
        byteAt_of_stored (congrArg (memSetAll · _ _) hmem) hepoch⟩
    case duplicate =>
      rw [handleEvent_of_hit _ hmaster hhit, classify_of_behind _ _ _ hexpected hbehind] at hbody
      exact exec_psread_of_done hfatal hbody
    case packetLost =>
      rw [handleEvent_of_hit _ hmaster hhit, classify_of_ahead _ _ _ hexpected hpos hahead] at hbody
      exact exec_psread_of_done hfatal hbody

end Sys2Proof.Machine
end

section
/-! SUPPORT. The roles of the legs over a popped event (R414), and a gap repaired over many PSREADs
(R410, R411, R416), with the statements on both. -/

namespace Sys2Proof.Machine

open Sys2Proof

/-! ## Liveness (R414) -/

theorem lastArrival_refreshLegs (p : Switch) (l : Leg) (t : Time) :
    (legState (refreshLegs p l t) l).lastArrival = some t := by
  cases l <;> rfl

theorem lastArrival_refreshLegs_of_ne (p : Switch) {l m : Leg} (t : Time) (h : m ≠ l) :
    (legState (refreshLegs p l t) m).lastArrival = (legState p m).lastArrival := by
  obtain rfl := eq_otherLeg_of_ne h
  cases l <;> rfl

theorem ring_refreshLegs (p : Switch) (l m : Leg) (t : Time) :
    (legState (refreshLegs p l t) m).ring = (legState p m).ring := by
  cases l <;> cases m <;> rfl

theorem refreshLegs_keeps (p : Switch) (l : Leg) (t : Time) :
    (refreshLegs p l t).master = p.master ∧ (refreshLegs p l t).expected = p.expected ∧
      (refreshLegs p l t).evq = p.evq := by
  cases l <;> exact ⟨rfl, rfl, rfl⟩

theorem isOnline_iff {p : Switch} {x : LegState} {t : Time} :
    isOnline p x t = true ↔
      ∃ a, x.lastArrival = some a ∧ (t - a).toNat ≤ p.thresh.toNat := by
  unfold isOnline
  cases x.lastArrival <;> simp [BitVec.le_def]

theorem online_refreshLegs (p : Switch) (l m : Leg) (t : Time) :
    (legState (refreshLegs p l t) m).online = isOnline p (legState (refreshLegs p l t) m) t := by
  cases m <;> cases l <;> rfl

/-- The refresh makes a leg Online exactly when its last arrival is recent enough. -/
theorem online_refreshLegs_iff (p : Switch) (l m : Leg) (t : Time) :
    (legState (refreshLegs p l t) m).online = true ↔
      ∃ a, (legState (refreshLegs p l t) m).lastArrival = some a ∧
        (t - a).toNat ≤ p.thresh.toNat := by
  rw [online_refreshLegs]
  exact isOnline_iff

theorem otherLeg_ne (l : Leg) : otherLeg l ≠ l := by
  cases l <;> decide

/-- A swap of the roles leaves the legs as the refresh made them. -/
theorem legState_liveness (s : State) (l m : Leg) (t : Time) :
    legState (liveness s l t).1.ps m = legState (refreshLegs s.ps l t) m := by
  obtain ⟨-, h⟩ | ⟨-, h⟩ := liveness_eq s l t <;>
    exact (congrArg (fun r => legState r.1.ps m) h).trans (by cases m <;> rfl)

/-- Where the refresh leaves the Master Offline, the other leg is the popped one, and is Online. -/
theorem otherLeg_online_of_offline {p : Switch} {l m : Leg} {t : Time}
    (h : (legState (refreshLegs p l t) m).online = false) :
    (legState (refreshLegs p l t) (otherLeg m)).online = true := by
  have hne : l ≠ m := by
    rintro rfl
    exact absurd (refreshLegs_online p l t) (by simp [h])
  rw [← eq_otherLeg_of_ne hne]
  exact refreshLegs_online p l t

/-- The state `u` has the legs, the roles, the event queue and the count of swaps of `s`. -/
structure KeepsRoles (s u : State) : Prop where
  legs : ∀ m, legState u.ps m = legState s.ps m
  master : u.ps.master = s.ps.master
  evq : u.ps.evq = s.ps.evq
  swaps : u.cnt.psSwap = s.cnt.psSwap

/-- A result that is no hold and, where it completes, keeps what Liveness made of the roles, carries
the flags given, and records no event with a delivery. -/
def CmdResult.Handles (r : CmdResult) (s : State) (flags : CmdFlags) : Prop :=
  match r with
  | .done u code flags' => KeepsRoles s u ∧ flags' = flags ∧ (code = .delivered → u.ev = s.ev)
  | .hold => False
  | .stop _ => True

theorem deliverExpecting_handles (s : State) (l : Leg) (pkt : Packet) (next : Seq)
    (flags : CmdFlags) : (deliverExpecting s l pkt next flags).Handles s flags := by
  unfold deliverExpecting
  split
  next => trivial
  next s1 hd =>
    obtain ⟨-, rfl⟩ := deliver_eq_some.1 hd
    exact ⟨⟨fun m => by cases m <;> rfl, rfl, rfl, rfl⟩, rfl, fun _ => rfl⟩

theorem classify_handles (s : State) (l : Leg) (q : Seq) (pkt : Packet) (flags : CmdFlags) :
    (classify s l q pkt flags).Handles s flags := by
  unfold classify
  split
  next => exact deliverExpecting_handles ..
  next x _ =>
    split
    next => exact deliverExpecting_handles ..
    next =>
      split
      next => exact ⟨⟨fun _ => rfl, rfl, rfl, rfl⟩, rfl, nofun⟩
      next => exact ⟨⟨fun m => by cases m <;> rfl, rfl, rfl, rfl⟩, rfl, nofun⟩

theorem handleEvent_handles (s : State) (e : ArrivalEvent) (flags : CmdFlags) :
    (handleEvent s e flags).Handles s flags := by
  unfold handleEvent
  split
  next => exact ⟨⟨fun _ => rfl, rfl, rfl, rfl⟩, rfl, nofun⟩
  next =>
    split
    next => exact ⟨⟨fun _ => rfl, rfl, rfl, rfl⟩, rfl, nofun⟩
    next => exact classify_handles ..

/-- A PSREAD whose result handles the popped event completes with the roles and flags given. -/
theorem exec_psread_of_handles {s r t : State} {flags : CmdFlags} (hfatal : s.fatal = none)
    (h : (psreadBody s).Handles r flags) (ht : exec .psread s = .next t) :
    KeepsRoles r t ∧ t.ing.stat.flags = flags ∧ (t.ing.stat.code = .delivered → t.ev = r.ev) := by
  rw [exec_of_ingest rfl] at ht
  obtain ⟨hf, -⟩ | ⟨-, u, code, flags', hbody, rfl⟩ | ⟨-, hbody, -⟩ := runIngest_eq_next.1 ht
  · simp [hfatal] at hf
  · have hdone : (CmdResult.done u code flags').Handles r flags := hbody ▸ h
    obtain ⟨⟨hlegs, hmaster, hevq, hswaps⟩, hflags, hev⟩ := hdone
    exact ⟨⟨hlegs, hmaster, hevq, hswaps⟩, hflags, hev⟩
  · have hhold : CmdResult.hold.Handles r flags := hbody ▸ h
    exact hhold.elim

/-- Settles O50: the roles are what Liveness makes them, since handling the event keeps them. -/
theorem masterIsAlwaysAlive : Obligations.MasterIsAlwaysAlive := by
  intro s t e rest hfatal hpending hheld hevq ht
  have hhandles := psreadBody_of_event hpending hheld hevq ▸ handleEvent_handles _ e _
  obtain ⟨hkeeps, hflags, hev⟩ := exec_psread_of_handles hfatal hhandles ht
  have hlegs (l : Leg) :
      legState t.ps l = legState (refreshLegs { s.ps with evq := rest } e.leg e.time) l :=
    (hkeeps.legs l).trans (legState_liveness ..)
  obtain ⟨-, hrest, -, -⟩ := liveness_ps { s with ps.evq := rest } e.leg e.time
  obtain ⟨hrole, -, -⟩ := refreshLegs_keeps { s.ps with evq := rest } e.leg e.time
  refine ⟨hkeeps.evq.trans hrest, ?refreshed, fun l hl => ?other, fun l => ?online, ?roles⟩
  case refreshed =>
    rw [hlegs]
    exact lastArrival_refreshLegs ..
  case other =>
    rw [hlegs, lastArrival_refreshLegs_of_ne _ _ hl]
    cases l <;> rfl
  case online =>
    rw [hlegs]
    exact online_refreshLegs_iff ..
  case roles =>
    have hmaster := hkeeps.master
    have hswaps := hkeeps.swaps
    obtain ⟨hon, hlive⟩ | ⟨hoff, hlive⟩ :=
      liveness_eq { s with ps.evq := rest } e.leg e.time <;>
      rw [hlive] at hmaster hswaps hflags hev
    · have hsame : t.ps.master = s.ps.master := hmaster.trans hrole
      have halive : (legState t.ps s.ps.master).online = true := (hlegs _).symm ▸ hon
      exact ⟨iff_of_false (not_not.2 hsame) (by simp [halive]),
        iff_of_false (by simp [hflags]) (not_not.2 hsame), hswaps.trans (if_pos hsame).symm,
        absurd hsame, hsame ▸ halive⟩
    · have hswapped : t.ps.master ≠ s.ps.master := hmaster ▸ otherLeg_ne _
      have hdead : (legState t.ps s.ps.master).online = false := (hlegs _).symm ▸ hoff
      have halive : (legState t.ps (otherLeg s.ps.master)).online = true :=
        (hlegs _).symm ▸ otherLeg_online_of_offline hoff
      exact ⟨iff_of_true hswapped hdead, iff_of_true (by rw [hflags]) hswapped,
        hswaps.trans (if_neg hswapped).symm, fun _ => hev, hmaster ▸ halive⟩

/-! ## PSREADs in a row -/

theorem psreads_of_first {s t : State} (h : exec .psread s = .next t) (n : Nat) :
    psreads (n + 1) s = psreads n t := by
  rw [psreads, h]

theorem psreads_succ_last {n : Nat} {s t u : State} (h : psreads n s = some t)
    (hlast : exec .psread t = .next u) : psreads (n + 1) s = some u := by
  induction n generalizing s with
  | zero =>
    cases h
    exact psreads_of_first hlast 0
  | succ n ih =>
    rw [psreads] at h ⊢
    cases hfirst : exec .psread s with
    | next r =>
      rw [hfirst] at h
      exact ih h
    | fault f =>
      rw [hfirst] at h
      cases h
    | refused f =>
      rw [hfirst] at h
      cases h

/-- A lookup reads the configuration and the leg's ring alone. -/
theorem lookup_congr {s t : State} {l : Leg} (hconfig : t.config = s.config)
    (hring : (legState t.ps l).ring = (legState s.ps l).ring) (q : Seq) :
    lookup t l q = lookup s l q := by
  simp only [lookup, hconfig, hring]

/-- The bytes just stored at the start of a space are the bytes read there. -/
theorem spaceBytes_of_stored {s t : State} {sp : Space} {bs : List Byte}
    (hmem : t.mem = memSetAll s.mem sp.base bs) (hepoch : t.epoch = s.epoch) :
    t.spaceBytes sp 0 bs.length = bs := by
  refine List.ext_getElem (length_spaceBytes ..) fun k _ hk => ?_
  simp [State.spaceBytes, State.spaceByte, byteAt_of_stored hmem hepoch, bytesStored, hk]

/-! ## A gap, revealed (R414, R416) -/

/-- An event of the Master leaves it Online, so Liveness swaps no roles. -/
theorem liveness_of_master (s : State) (t : Time) :
    liveness s s.ps.master t = ({ s with ps := refreshLegs s.ps s.ps.master t }, false) := by
  obtain ⟨-, h⟩ | ⟨hoff, -⟩ := liveness_eq s s.ps.master t
  · exact h
  · rw [refreshLegs_online] at hoff
    cases hoff

/-- The Master's event of `time` popped, `rest` left in the queue, and Liveness run. -/
def masterPopped (s : State) (time : Time) (rest : List ArrivalEvent) : State :=
  { s with ps := refreshLegs { s.ps with evq := rest } s.ps.master time }

theorem lookup_masterPopped (s : State) (time : Time) (rest : List ArrivalEvent) (l : Leg)
    (q : Seq) : lookup (masterPopped s time rest) l q = lookup s l q :=
  lookup_congr (s := s) (t := masterPopped s time rest) rfl
    ((ring_refreshLegs { s.ps with evq := rest } s.ps.master l time).trans (by cases l <;> rfl)) q

theorem masterPopped_ps (s : State) (time : Time) (rest : List ArrivalEvent) :
    (masterPopped s time rest).ps.master = s.ps.master ∧
      (masterPopped s time rest).ps.expected = s.ps.expected ∧
      (masterPopped s time rest).ps.evq = rest :=
  refreshLegs_keeps { s.ps with evq := rest } s.ps.master time

/-- The state after the PSREAD that finds packet `q` of the Master ahead of the expected `x`. -/
def gapRevealed (s : State) (x q : Seq) (time : Time) (rest : List ArrivalEvent) (pkt : Packet) :
    State :=
  completeIngest (holdGap (masterPopped s time rest) s.ps.master x q pkt) .packetLost {}

theorem exec_psread_of_gap {s : State} {x q : Seq} {time : Time} {rest : List ArrivalEvent}
    {pkt : Packet} (hfatal : s.fatal = none) (hpending : s.ps.pending = 0)
    (hheld : s.ps.held = none) (hexpected : s.ps.expected = some x)
    (hevq : s.ps.evq = { leg := s.ps.master, seq := q, time := time } :: rest)
    (hpos : 0 < (q - x).toNat) (hahead : (q - x).toNat < 2 ^ 15)
    (hhit : lookup s s.ps.master q = some pkt) :
    exec .psread s = .next (gapRevealed s x q time rest pkt) := by
  have hlive : liveness { s with ps.evq := rest } s.ps.master time =
      (masterPopped s time rest, false) := liveness_of_master { s with ps.evq := rest } time
  have hbody := psreadBody_of_event hpending hheld hevq
  obtain ⟨hmaster, hexp, -⟩ := masterPopped_ps s time rest
  rw [hlive, handleEvent_of_hit _ hmaster.symm ((lookup_masterPopped ..).trans hhit),
    classify_of_ahead _ _ _ (hexp.trans hexpected) hpos hahead] at hbody
  exact exec_psread_of_done hfatal hbody

theorem lookup_gapRevealed (s : State) (x q : Seq) (time : Time) (rest : List ArrivalEvent)
    (pkt : Packet) (l : Leg) (r : Seq) :
    lookup (gapRevealed s x q time rest pkt) l r = lookup s l r :=
  (lookup_congr (t := gapRevealed s x q time rest pkt) (s := masterPopped s time rest) rfl
    (by cases l <;> rfl) r).trans (lookup_masterPopped ..)

/-! ## The gap filled from the Secondary (R411) -/

/-- What `k` repairs in a row make of a state `r` that expects `x`, PKT and the ingest port aside. -/
structure Repaired (r : State) (x : Seq) (k : Nat) (t : State) : Prop where
  fatal : t.fatal = r.fatal
  config : t.config = r.config
  assembler : t.fa = r.fa
  counters : t.cnt = { r.cnt with psRepaired := r.cnt.psRepaired + BitVec.ofNat 32 k }
  switch :
    t.ps =
      { r.ps with
        expected := some (x + BitVec.ofNat 16 k), pending := r.ps.pending - BitVec.ofNat 16 k }

theorem Repaired.refl {r : State} {x : Seq} (h : r.ps.expected = some x) : Repaired r x 0 r where
  fatal := rfl
  config := rfl
  assembler := rfl
  counters := by simp
  switch := by simp [← h]

section

variable {r t : State} {x : Seq} {k : Nat} {pkt : Packet}

theorem Repaired.master (h : Repaired r x k t) : t.ps.master = r.ps.master := by
  rw [h.switch]

theorem Repaired.expected (h : Repaired r x k t) :
    t.ps.expected = some (x + BitVec.ofNat 16 k) := by
  rw [h.switch]

theorem Repaired.pending (h : Repaired r x k t) :
    t.ps.pending = r.ps.pending - BitVec.ofNat 16 k := by
  rw [h.switch]

theorem Repaired.held (h : Repaired r x k t) : t.ps.held = r.ps.held := by
  rw [h.switch]

theorem Repaired.evq (h : Repaired r x k t) : t.ps.evq = r.ps.evq := by
  rw [h.switch]

theorem Repaired.lookup_eq (h : Repaired r x k t) (l : Leg) (q : Seq) :
    lookup t l q = lookup r l q := by
  refine lookup_congr h.config ?_ q
  rw [h.switch]
  cases l <;> rfl

/-- While packets are missing, PSREAD takes the next of them from the Secondary. -/
theorem Repaired.exec_psread (h : Repaired r x k t) (hfatal : r.fatal = none)
    (hk : k < r.ps.pending.toNat)
    (hhit : lookup r (otherLeg r.ps.master) (x + BitVec.ofNat 16 k) = some pkt)
    (hfits : pkt.bytes.length ≤ r.config.maxPktBytes) :
    exec .psread t =
      .next (completeIngest (gapFilled t (x + BitVec.ofNat 16 k) pkt) .delivered
        { repaired := true }) := by
  have hpending : t.ps.pending ≠ 0 := by
    rw [h.pending]
    bv_omega
  rw [← h.lookup_eq, ← h.master] at hhit
  exact exec_psread_of_done (h.fatal.trans hfatal) ((psreadBody_of_pending hpending).trans
    (catchUp_of_hit h.expected hhit (hfits.trans_eq (congrArg _ h.config.symm))))

theorem Repaired.gapFilled (h : Repaired r x k t) (pkt : Packet) (code : Status)
    (flags : CmdFlags) :
    Repaired r x (k + 1)
      (completeIngest (gapFilled t (x + BitVec.ofNat 16 k) pkt) code flags) where
  fatal := h.fatal
  config := h.config
  assembler := h.assembler
  counters := by
    show { t.cnt with psRepaired := t.cnt.psRepaired + 1 } = _
    rw [h.counters, BitVec.ofNat_add, ← BitVec.add_assoc]
    rfl
  switch := by
    show { t.ps with
      expected := some (x + BitVec.ofNat 16 k + 1), pending := t.ps.pending - 1 } = _
    rw [h.switch, BitVec.ofNat_add, ← BitVec.add_assoc, sub_add_eq_sub_sub]
    rfl

theorem Repaired.pending_eq_zero (h : Repaired r x k t) (hk : r.ps.pending.toNat = k) :
    t.ps.pending = 0 := by
  rw [h.pending]
  bv_omega

/-- Once none is missing, PSREAD delivers the packet that revealed the gap (R410). -/
theorem Repaired.exec_psread_of_filled {held : HeldPacket} (h : Repaired r x k t)
    (hfatal : r.fatal = none) (hk : r.ps.pending.toNat = k) (hheld : r.ps.held = some held)
    (hfits : held.packet.bytes.length ≤ r.config.maxPktBytes) :
    exec .psread t =
      .next (completeIngest
        { delivered t held.leg held.packet with
          ps.held := none, ps.expected := some (held.packet.seq + 1) }
        .delivered {}) :=
  exec_psread_of_done (h.fatal.trans hfatal)
    ((psreadBody_of_held (h.pending_eq_zero hk) (h.held.trans hheld)).trans
      (deliverHeld_of_fits (hfits.trans_eq (congrArg _ h.config.symm))))

/-- Each missing packet that the Secondary has is repaired by one PSREAD. -/
theorem repaired_of_psreads {fill : Nat → Packet} (hfatal : r.fatal = none)
    (hexpected : r.ps.expected = some x)
    (hfill : ∀ k < r.ps.pending.toNat,
      lookup r (otherLeg r.ps.master) (x + BitVec.ofNat 16 k) = some (fill k) ∧
        (fill k).bytes.length ≤ r.config.maxPktBytes)
    (hk : k ≤ r.ps.pending.toNat) : ∃ t, psreads k r = some t ∧ Repaired r x k t := by
  induction k with
  | zero => exact ⟨r, rfl, .refl hexpected⟩
  | succ k ih =>
    obtain ⟨t, ht, hrep⟩ := ih (by omega)
    obtain ⟨hhit, hfits⟩ := hfill k hk
    exact ⟨_, psreads_succ_last ht (hrep.exec_psread hfatal hk hhit hfits), hrep.gapFilled ..⟩

end

/-- Settles O52: the gap is revealed, then filled by induction over the PSREADs, and the held packet
follows. -/
theorem gapIsRepaired : Obligations.GapIsRepaired := by
  intro s x q time rest pkt fill sec hfatal hpending hheld hexpected hsec hevq hpos hahead hhit
    hfits hfill
  obtain rfl := eq_otherLeg_of_ne hsec
  have hfirst := exec_psread_of_gap hfatal hpending hheld hexpected hevq hpos hahead hhit
  obtain ⟨hmaster, hexp, hrest⟩ := masterPopped_ps s time rest
  have hfill' : ∀ k < (q - x).toNat,
      lookup (gapRevealed s x q time rest pkt) (otherLeg (masterPopped s time rest).ps.master)
          (x + BitVec.ofNat 16 k) = some (fill k) ∧
        (fill k).bytes.length ≤ s.config.maxPktBytes := by
    simpa only [lookup_gapRevealed, hmaster] using hfill
  have hreads {k : Nat} (hk : k ≤ (q - x).toNat) :=
    repaired_of_psreads (r := gapRevealed s x q time rest pkt) hfatal (hexp.trans hexpected)
      hfill' hk
  refine ⟨⟨_, psreads_of_first hfirst 0, rfl, rfl⟩, fun k hk => ?repaired, ?last⟩
  case repaired =>
    obtain ⟨t, ht, hrep⟩ := hreads hk.le
    obtain ⟨hhit', hlen⟩ := hfill' k hk
    have hnext := hrep.exec_psread hfatal hk hhit' hlen
    exact ⟨_, (psreads_of_first hfirst _).trans (psreads_succ_last ht hnext), rfl,
      congrArg (BitVec.setWidth 32) (seq_of_lookup hhit'),
      congrArg (fun l => (legIndex (otherLeg l)).setWidth 32) (hrep.master.trans hmaster), rfl,
      spaceBytes_of_stored rfl rfl, hrep.assembler⟩
  case last =>
    obtain ⟨t, ht, hrep⟩ := hreads le_rfl
    have hnext := hrep.exec_psread_of_filled hfatal rfl rfl hfits
    refine ⟨_, (psreads_of_first hfirst _).trans (psreads_succ_last ht hnext), rfl, rfl, rfl,
      spaceBytes_of_stored rfl rfl, rfl, hrep.pending_eq_zero rfl, rfl, hrep.evq.trans hrest,
      hrep.assembler, congrArg Counters.psGap hrep.counters, ?_,
      (congrArg Counters.psUnrecov hrep.counters :)⟩
    rw [← BitVec.ofNat_toNat]
    exact congrArg Counters.psRepaired hrep.counters

end Sys2Proof.Machine
end

section
/-! SUPPORT. The fatal gate and what a step can do while the block is fatal (R456, R457). -/

namespace Sys2Proof.Machine

open Sys2Proof

/-! ## The fatal gate (R456) -/

/-- Settles O8: the gate of the command's port ends it before its own pseudocode. -/
theorem fatalGateEndsEveryCommand : Obligations.FatalGateEndsEveryCommand := by
  intro i s hfatal
  cases hp : i.port with
  | ingest => exact exec_of_fatal_ingest hp hfatal
  | consumer => exact exec_of_fatal_consumer hp hfatal

/-- While the block is fatal an issued ingest word, legal or not, writes the status alone. -/
theorem issueIngest_of_fatal {s : State} (h : s.fatal.isSome = true) :
    ∃ code, issueIngest s = .next (completeIngest s code {}) := by
  cases hd : decodeOn .ingest s.ing.cmd with
  | error r => exact ⟨.illegal, by simp only [issueIngest, hd]⟩
  | ok i =>
    exact ⟨.fatal, (issueIngest_of_decode hd).trans
      (exec_of_fatal_ingest (decodeOn_eq_ok.1 hd).2 h)⟩

/-- While the block is fatal an issued consumer word, legal or not, writes the status alone. -/
theorem issueConsumer_of_fatal {s : State} (h : s.fatal.isSome = true) :
    ∃ code, issueConsumer s = .next (completeConsumer s code) := by
  cases hd : decodeOn .consumer s.con.cmd with
  | error r => exact ⟨.illegal, by simp only [issueConsumer, hd]⟩
  | ok i =>
    exact ⟨.fatal, (issueConsumer_of_decode hd).trans
      (exec_of_fatal_consumer (decodeOn_eq_ok.1 hd).2 h)⟩

theorem arrival_of_fatal {s : State} (h : s.fatal.isSome = true) (l : Leg) (bytes : List Byte)
    (time : Time) : arrival s l bytes time = s := if_pos h

/-! ## The halted block (R456, R457) -/

/-- A block address inside a space the host may write (R101). -/
def inHostSpaces (c : Config) (a : Nat) : Prop := inSpace c .pkt a ∨ inSpace c .work a

/-- `t` is `s` but for the schedule, the ports' command words, statuses and arguments, PS_THRESH and
the bytes the host may write. -/
structure Halted (s t : State) : Prop where
  units : units t = units s
  ir0 : t.ing.ir0 = s.ing.ir0
  ir1 : t.ing.ir1 = s.ing.ir1
  cr0 : t.con.cr0 = s.con.cr0
  cr1 : t.con.cr1 = s.con.cr1
  stores : StoresIn (inHostSpaces s.config) s.mem t.mem

theorem stores_hostWriteBytes_inHostSpaces (s : State) (a : Nat) (bs : List Byte) :
    StoresIn (inHostSpaces s.config) s.mem (hostWriteBytes s a bs).mem := by
  unfold hostWriteBytes
  split
  next => exact .nothing
  next sp _ =>
    split
    next hw =>
      obtain rfl | rfl := (hostWritable_iff sp).1 hw
      · exact (stores_writeWindow ..).mono fun _ => .inl
      · exact (stores_writeWindow ..).mono fun _ => .inr
    next => exact .nothing

theorem halted_of_issueIngest {s t : State} (hf : s.fatal.isSome = true)
    (h : issueIngest s = .next t) : Halted s t := by
  obtain ⟨code, hs⟩ := issueIngest_of_fatal hf
  cases hs.symm.trans h
  exact ⟨rfl, rfl, rfl, rfl, rfl, .nothing⟩

theorem halted_of_issueConsumer {s t : State} (hf : s.fatal.isSome = true)
    (h : issueConsumer s = .next t) : Halted s t := by
  obtain ⟨code, hs⟩ := issueConsumer_of_fatal hf
  cases hs.symm.trans h
  exact ⟨rfl, rfl, rfl, rfl, rfl, .nothing⟩

theorem halted_of_hostWrite {s t : State} {w : Width} {addr : Nat} {v : Word} {bytes : List Byte}
    (hf : s.fatal.isSome = true) (h : hostWrite s w addr v bytes = .next t) : Halted s t := by
  obtain hs | ⟨r, hs⟩ | ⟨a, hs⟩ | ⟨-, hs⟩ | ⟨-, hs⟩ := hostWrite_cases s w addr v bytes <;>
    rw [hs] at h
  · cases h
    exact ⟨rfl, rfl, rfl, rfl, rfl, .nothing⟩
  · cases h
    rw [storeRegister_eq]
    exact ⟨rfl, rfl, rfl, rfl, rfl, .nothing⟩
  · cases h
    have hstores := stores_hostWriteBytes_inHostSpaces s a bytes
    rw [hostWriteBytes_eq]
    exact ⟨rfl, rfl, rfl, rfl, rfl, hstores⟩
  · obtain ⟨hu, h0, h1, h2, h3, hm⟩ :=
      halted_of_issueIngest (s := { s with ing := { s.ing with cmd := v } }) hf h
    exact ⟨hu, h0, h1, h2, h3, hm⟩
  · obtain ⟨hu, h0, h1, h2, h3, hm⟩ :=
      halted_of_issueConsumer (s := { s with con := { s.con with cmd := v } }) hf h
    exact ⟨hu, h0, h1, h2, h3, hm⟩

/-- A move of the environment that finds the block fatal leaves it halted or is hardware reset. -/
theorem halted_of_perform {s t : State} {m : Move} (hf : s.fatal.isSome = true)
    (h : perform s m = .next t) : Halted s t ∨ (m = .hardReset ∧ t = s.hardReset) := by
  obtain ⟨d, hs⟩ | ⟨l, bytes, time, -, hs⟩ | ⟨hm, hs⟩ | ⟨w, addr, v, bytes, hs⟩ :=
    perform_cases s m <;> rw [hs] at h
  · cases h
    exact .inl ⟨rfl, rfl, rfl, rfl, rfl, .nothing⟩
  · cases h
    rw [arrival_of_fatal hf]
    exact .inl ⟨rfl, rfl, rfl, rfl, rfl, .nothing⟩
  · cases h
    exact .inr ⟨hm, rfl⟩
  · exact .inl (halted_of_hostWrite hf h)

theorem Halted.of_takeMove {s t : State} (h : Halted (takeMove s) t) : Halted s t := by
  rw [takeMove_eq] at h
  obtain ⟨hu, h0, h1, h2, h3, hm⟩ := h
  exact ⟨hu, h0, h1, h2, h3, hm⟩

theorem takeMove_fatal (s : State) : (takeMove s).fatal = s.fatal := by rw [takeMove_eq]

/-- A step from a fatal state leaves the block halted or is hardware reset. -/
theorem halted_of_step {s t : State} (hf : s.fatal.isSome = true) (h : step s = .next t) :
    Halted s t ∨ (nextMove s = .hardReset ∧ t = (takeMove s).hardReset) := by
  obtain ⟨-, hs⟩ | ⟨-, -, hs⟩ | ⟨-, -, -, hs⟩ | ⟨-, -, -, hs⟩ := step_cases s <;> rw [hs] at h
  case inl => cases h
  case inr.inl => exact .inl (halted_of_issueIngest hf h)
  case inr.inr.inl => exact .inl (halted_of_issueConsumer hf h)
  case inr.inr.inr =>
    rw [← takeMove_fatal] at hf
    exact (halted_of_perform hf h).imp_left Halted.of_takeMove

/-- Settles O9: a halted block keeps its units and results, and no byte outside PKT and WORK is
stored. -/
theorem fatalHaltsTheBlock : Obligations.FatalHaltsTheBlock := by
  refine ⟨fun s t hf h => ?step, fun s l bytes time hf => ?arrival⟩
  case step =>
    obtain ⟨hunits, hir0, hir1, hcr0, hcr1, hstores⟩ | hreset := halted_of_step hf h
    · refine .inr ⟨(congrArg State.fatal hunits :), (congrArg State.fa hunits :),
        (congrArg State.hdr hunits :), (congrArg State.cnt hunits :),
        (congrArg State.ev hunits :), (congrArg State.slots hunits :),
        (congrArg State.ready hunits :),
        (congrArg (fun x => { x.ps with thresh := s.ps.thresh }) hunits :),
        hir0, hir1, hcr0, hcr1, config_of_units hunits, fun a hpkt hwork => ?_⟩
      exact hstores.byteAt_eq_of_not (congrArg State.epoch hunits :) (not_or.2 ⟨hpkt, hwork⟩)
    · exact .inl hreset
  case arrival => exact congrArg Host.Outcome.next (arrival_of_fatal hf l bytes time)

end Sys2Proof.Machine
end

section
/-! SUPPORT. How FAADD completes, and that no other command and no move raises Fatal (R455). -/

namespace Sys2Proof.Machine

open Sys2Proof

/-! ## FAADD: its status, and the Fatal it announces (R317 to R319, R455) -/

/-- `u` is the state `s` once Fatal is raised and announced by a packet of sequence number `q`: with
the stage of the lookup that failed, or with stage 0. -/
inductive RaisedFrom (s : State) (q : Seq) : State → Prop where
  | profile (st : ResolveStage) :
    RaisedFrom s q (geometryFatal s .profileFatal .profile (stageCode st) q)
  | length : RaisedFrom s q (geometryFatal s .lengthFatal .length 0 q)
  | overflow : RaisedFrom s q (geometryFatal s .overflowFatal .overflow 0 q)

/-- Where FAADD completes on a packet of sequence number `q`, it does so with a status of its own and
the block not fatal, or it raised Fatal and completes with FATAL. -/
def CmdResult.EndsFaadd (r : CmdResult) (q : Seq) : Prop :=
  match r with
  | .done u code _ =>
    (u.fatal = none ∧ code ∈ returnedBy .faadd) ∨ (code = .fatal ∧ ∃ s, RaisedFrom s q u)
  | .hold => True
  | .stop _ => True

theorem endsFaadd_of_status {u : State} {code : Status} {flags : CmdFlags} {q : Seq}
    (hu : u.fatal = none) (hcode : code ∈ returnedBy .faadd) :
    (CmdResult.done u code flags).EndsFaadd q := .inl ⟨hu, hcode⟩

theorem endsFaadd_of_raised {s u : State} {flags : CmdFlags} {q : Seq} (h : RaisedFrom s q u) :
    (CmdResult.done u .fatal flags).EndsFaadd q := .inr ⟨rfl, s, h⟩

theorem endOfFrame_endsFaadd {s : State} (hf : s.fatal = none) (k plen : Nat) (q : Seq)
    (flags : CmdFlags) : (endOfFrame s k plen q flags).EndsFaadd q := by
  unfold endOfFrame
  split
  next => trivial
  next index _ =>
    split
    next => trivial
    next p _ =>
      dsimp only
      split
      next => exact endsFaadd_of_raised .length
      next => exact endsFaadd_of_status hf (by decide)

theorem appendPayload_endsFaadd {s : State} (hf : s.fatal = none) (k : Nat) (h : PacketHead)
    (flags : CmdFlags) : (appendPayload s k h flags).EndsFaadd h.rtp.seq := by
  unfold appendPayload
  dsimp only
  split
  next => exact endsFaadd_of_raised .overflow
  next =>
    split
    next => trivial
    next bytes _ =>
      split
      next => trivial
      next s1 hw =>
        obtain ⟨-, rfl⟩ := memWrite_eq_some.1 hw
        split
        next =>
          refine endOfFrame_endsFaadd ?_ ..
          exact hf
        next => exact endsFaadd_of_status hf (by decide)

theorem packetTaken_fatal (s : State) (q : Seq) : (packetTaken s q).fatal = s.fatal := by
  have hstart : (startNextFrame s).fatal = s.fatal := by rw [startNextFrame_eq]
  rw [packetTaken]
  cases h : sequenceLost (startNextFrame s) q with
  | false => rw [sequenceCheck_of_ok h]; exact hstart
  | true => rw [sequenceCheck_of_lost h]; exact hstart

theorem collectPacket_endsFaadd {s : State} (hf : s.fatal = none) (k : Nat) (h : PacketHead) :
    (collectPacket s k h).EndsFaadd h.rtp.seq := by
  have htaken : (packetTaken s h.rtp.seq).fatal = none := (packetTaken_fatal ..).trans hf
  unfold collectPacket
  dsimp only
  rw [← packetTaken]
  split
  next =>
    unfold resyncFilter
    split <;> exact endsFaadd_of_status htaken (by decide)
  next =>
    split
    next st _ => exact endsFaadd_of_raised (.profile st)
    next s3 hbind =>
      refine appendPayload_endsFaadd ?_ ..
      obtain ⟨-, rfl⟩ | ⟨-, -, _, _, -, rfl⟩ := bindProfile_eq_ok hbind <;> exact htaken

/-- The packet that passes the checks is the one in PKT (R220, R312). -/
theorem seq_of_transportCheck {s : State} {n : Nat} {h : PacketHead}
    (hpass : transportCheck s n = .pass h) : h.rtp.seq = pktSeq s := by
  obtain ⟨rtp, hrtp, -, hn, -, rfl⟩ := transportCheck_eq_pass.1 hpass
  rw [parseRtp_pkt (by omega)] at hrtp
  cases hrtp
  rfl

theorem faaddBody_endsFaadd {s : State} (hf : s.fatal = none) :
    (faaddBody s).EndsFaadd (pktSeq s) := by
  unfold faaddBody
  split
  next => exact endsFaadd_of_status hf (by decide)
  next n _ =>
    split
    next t code hskip =>
      obtain ⟨_, _, ⟨rfl, rfl, -⟩ | ⟨rfl, rfl, -⟩⟩ := transportCheck_eq_skip hskip <;>
        exact endsFaadd_of_status hf (by decide)
    next h hpass =>
      split
      next => trivial
      next t k hslot =>
        rw [← seq_of_transportCheck hpass]
        refine collectPacket_endsFaadd ?_ k h
        obtain ⟨_, -, -, rfl⟩ | ⟨-, -, rfl⟩ := acquireSlot_eq_some hslot <;> exact hf

/-! ## Only FAADD raises Fatal (R455) -/

/-- FAADD of the word in ICMD, on the packet that `s` has in PKT, answers `t`. -/
def FaaddAnswers (s t : State) : Prop :=
  ∃ s', decodeOn .ingest s'.ing.cmd = .ok .faadd ∧ s'.fatal = none ∧ pktSeq s' = pktSeq s ∧
    exec .faadd s' = .next t

theorem faadd_of_issueIngest_fatal {s t : State} (hf : s.fatal = none)
    (h : issueIngest s = .next t) (ht : t.fatal ≠ none) : FaaddAnswers s t := by
  cases hd : decodeOn .ingest s.ing.cmd with
  | error r =>
    simp only [issueIngest, hd, Host.Outcome.next.injEq] at h
    subst h
    exact absurd hf ht
  | ok i =>
    rw [issueIngest_of_decode hd] at h
    by_cases hi : i = .faadd
    · subst hi
      exact ⟨s, hd, hf, rfl, h⟩
    · exact absurd ((fatal_of_kept (exec_keeps h) hi).trans hf) ht

theorem fatal_of_issueConsumer {s t : State} (h : issueConsumer s = .next t) :
    t.fatal = s.fatal := by
  obtain ⟨-, hrest⟩ | ⟨rfl, -⟩ := issueConsumer_ends_or_holds h
  · exact (congrArg ConsumerRest.fatal hrest :)
  · rfl

theorem faadd_of_hostWrite_fatal {s t : State} {w : Width} {addr : Nat} {v : Word}
    {bytes : List Byte} (hf : s.fatal = none) (h : hostWrite s w addr v bytes = .next t)
    (ht : t.fatal ≠ none) : FaaddAnswers s t := by
  obtain hs | ⟨r, hs⟩ | ⟨a, hs⟩ | ⟨-, hs⟩ | ⟨-, hs⟩ := hostWrite_cases s w addr v bytes <;>
    rw [hs] at h
  · cases h
    exact absurd hf ht
  · cases h
    rw [storeRegister_eq] at ht
    exact absurd hf ht
  · cases h
    rw [hostWriteBytes_eq] at ht
    exact absurd hf ht
  · exact faadd_of_issueIngest_fatal (s := { s with ing := { s.ing with cmd := v } }) hf h ht
  · exact absurd ((fatal_of_issueConsumer h).trans hf) ht

theorem faadd_of_perform_fatal {s t : State} {m : Move} (hf : s.fatal = none)
    (h : perform s m = .next t) (ht : t.fatal ≠ none) : FaaddAnswers s t := by
  obtain ⟨d, hs⟩ | ⟨l, bytes, time, -, hs⟩ | ⟨-, hs⟩ | ⟨w, addr, v, bytes, hs⟩ :=
    perform_cases s m <;> rw [hs] at h
  · cases h
    exact absurd hf ht
  · cases h
    rw [arrival_eq] at ht
    exact absurd hf ht
  · cases h
    exact absurd rfl ht
  · exact faadd_of_hostWrite_fatal hf h ht

theorem FaaddAnswers.of_takeMove {s t : State} (h : FaaddAnswers (takeMove s) t) :
    FaaddAnswers s t := by
  rw [takeMove_eq] at h
  exact h

/-- A step into Fatal is a FAADD on the packet in PKT. -/
theorem faadd_of_step_fatal {s t : State} (hf : s.fatal = none) (h : step s = .next t)
    (ht : t.fatal ≠ none) : FaaddAnswers s t := by
  obtain ⟨-, hs⟩ | ⟨-, -, hs⟩ | ⟨-, -, -, hs⟩ | ⟨-, -, -, hs⟩ := step_cases s <;> rw [hs] at h
  case inl => cases h
  case inr.inl => exact faadd_of_issueIngest_fatal hf h ht
  case inr.inr.inl => exact absurd ((fatal_of_issueConsumer h).trans hf) ht
  case inr.inr.inr =>
    rw [← takeMove_fatal] at hf
    exact (faadd_of_perform_fatal hf h ht).of_takeMove

/-- A FAADD that answers a fatal state has completed with FATAL, its Fatal raised by the packet in
PKT. -/
theorem raised_of_exec_faadd {s t : State} (hf : s.fatal = none) (h : exec .faadd s = .next t)
    (ht : t.fatal ≠ none) :
    ∃ s' u flags, RaisedFrom s' (pktSeq s) u ∧ t = completeIngest u .fatal flags := by
  rw [exec_of_ingest rfl, runIngest_eq_next] at h
  obtain ⟨hfatal, -⟩ | ⟨-, u, code, flags, hbody, rfl⟩ | ⟨-, -, rfl⟩ := h
  · simp [hf] at hfatal
  · have hend : (CmdResult.done u code flags).EndsFaadd (pktSeq s) :=
      hbody ▸ faaddBody_endsFaadd hf
    obtain ⟨hu, -⟩ | ⟨rfl, s', hraised⟩ := hend
    · exact absurd hu ht
    · exact ⟨s', u, flags, hraised, rfl⟩
  · exact absurd hf ht

/-- FATAL.STAGE of a failed lookup (R47, R317). -/
theorem stageCode_bounds (st : ResolveStage) : 1 ≤ stageCode st ∧ stageCode st ≤ 4 := by
  cases st <;> decide

/-- Settles O10: the step is a FAADD, and each of its three Fatals records and announces its own
cause. -/
theorem fatalOnlyFromFaadd : Obligations.FatalOnlyFromFaadd := by
  intro s t r hf h hr
  have ht : t.fatal ≠ none := by simp [hr]
  obtain ⟨s', hdecode, hf', hseq, hexec⟩ := faadd_of_step_fatal hf h ht
  have hcmd : t.ing.cmd = s'.ing.cmd := by
    simpa using congrArg (·.ing.cmd) (exec_keeps hexec)
  rw [← hcmd] at hdecode
  obtain ⟨_, u, flags, hraised, rfl⟩ := raised_of_exec_faadd hf' hexec ht
  refine ⟨rfl, rfl, hdecode, ?_⟩
  cases hraised with
  | profile st => cases hr; exact ⟨hseq, stageCode_bounds st, rfl⟩
  | length => cases hr; exact ⟨hseq, rfl, rfl⟩
  | overflow => cases hr; exact ⟨hseq, rfl, rfl⟩

end Sys2Proof.Machine
end

section
/-! SUPPORT. Which status codes each command returns where it completes (R450). -/

namespace Sys2Proof.Machine

open Sys2Proof

/-- Where the pseudocode completes, it does so with one of the codes. -/
def CmdResult.Returns (r : CmdResult) (codes : List Status) : Prop :=
  match r with
  | .done _ code _ => code ∈ codes
  | .hold => True
  | .stop _ => True

theorem returns_of_mem {s : State} {code : Status} {flags : CmdFlags} {codes : List Status}
    (h : code ∈ codes) : (CmdResult.done s code flags).Returns codes := h

theorem CmdResult.EndsFaadd.returns {r : CmdResult} {q : Seq} (h : r.EndsFaadd q) :
    r.Returns (returnedBy .faadd) := by
  cases r with
  | done u code flags =>
    obtain ⟨-, hcode⟩ | ⟨rfl, -⟩ := h
    · exact hcode
    · exact returns_of_mem (by decide)
  | hold => trivial
  | stop f => trivial

/-! ## The words, the headers and the CRC (R210 to R292) -/

theorem w10getBody_returns (sp sl : Nat) (s : State) :
    (w10getBody sp sl s).Returns [.ok, .badArg] := by
  unfold w10getBody
  split
  next => exact returns_of_mem (by decide)
  next => dsimp only; split <;> exact returns_of_mem (by decide)

theorem w10setBody_returns (sp sl : Nat) (s : State) :
    (w10setBody sp sl s).Returns [.ok, .badArg] := by
  unfold w10setBody
  split
  next => exact returns_of_mem (by decide)
  next =>
    dsimp only
    split
    next => exact returns_of_mem (by decide)
    next =>
      split
      next => exact returns_of_mem (by decide)
      next => split <;> exact returns_of_mem (by decide)

theorem rtpparseBody_returns (s : State) :
    (rtpparseBody s).Returns [.ok, .badArg, .malformed] := by
  unfold rtpparseBody
  split
  next => exact returns_of_mem (by decide)
  next => split <;> exact returns_of_mem (by decide)

theorem hbrmtdecBody_returns (s : State) :
    (hbrmtdecBody s).Returns [.ok, .badArg, .malformed] := by
  unfold hbrmtdecBody
  split
  next => exact returns_of_mem (by decide)
  next =>
    split
    next => exact returns_of_mem (by decide)
    next => dsimp only; split <;> exact returns_of_mem (by decide)

theorem profresBody_returns (s : State) : (profresBody s).Returns [.ok, .notDefined] := by
  unfold profresBody
  dsimp only
  split <;> exact returns_of_mem (by decide)

theorem crccompBody_returns (sp sl : Nat) (s : State) :
    (crccompBody sp sl s).Returns [.ok, .badArg] := by
  unfold crccompBody
  split
  next => exact returns_of_mem (by decide)
  next => dsimp only; split <;> exact returns_of_mem (by decide)

theorem crccheckBody_returns (sp sl : Nat) (s : State) :
    (crccheckBody sp sl s).Returns [.badArg, .crcPass, .crcFail] := by
  unfold crccheckBody
  split
  next => exact returns_of_mem (by decide)
  next =>
    dsimp only
    split
    next => refine returns_of_mem ?_; split <;> decide
    next => exact returns_of_mem (by decide)

/-! ## PSREAD (R409) -/

theorem deliverExpecting_returns (s : State) (l : Leg) (pkt : Packet) (next : Seq)
    (flags : CmdFlags) : (deliverExpecting s l pkt next flags).Returns (returnedBy .psread) := by
  unfold deliverExpecting
  split
  next => trivial
  next => exact returns_of_mem (by decide)

theorem classify_returns (s : State) (l : Leg) (q : Seq) (pkt : Packet) (flags : CmdFlags) :
    (classify s l q pkt flags).Returns (returnedBy .psread) := by
  unfold classify
  split
  next => exact deliverExpecting_returns ..
  next =>
    split
    next => exact deliverExpecting_returns ..
    next => split <;> exact returns_of_mem (by decide)

theorem handleEvent_returns (s : State) (ev : ArrivalEvent) (flags : CmdFlags) :
    (handleEvent s ev flags).Returns (returnedBy .psread) := by
  unfold handleEvent
  split
  next => exact returns_of_mem (by decide)
  next =>
    split
    next => exact returns_of_mem (by decide)
    next => exact classify_returns ..

theorem catchUp_returns (s : State) : (catchUp s).Returns (returnedBy .psread) := by
  unfold catchUp
  split
  next => trivial
  next =>
    dsimp only
    split
    next =>
      split
      next => trivial
      next => exact returns_of_mem (by decide)
    next =>
      split
      next => trivial
      next => exact returns_of_mem (by decide)

theorem psreadBody_returns (s : State) : (psreadBody s).Returns (returnedBy .psread) := by
  unfold psreadBody
  split
  next => exact catchUp_returns s
  next =>
    split
    next => exact deliverExpecting_returns ..
    next =>
      split
      next => trivial
      next => exact handleEvent_returns ..

/-! ## The consumer commands (R370 to R386) -/

theorem mbnextBody_returns (s : State) : (mbnextBody s).Returns [.ok] := by
  unfold mbnextBody
  split
  next => trivial
  next => exact returns_of_mem (by decide)

theorem mbtypeBody_returns (s : State) : (mbtypeBody s).Returns [.ok, .badToken] := by
  unfold mbtypeBody
  split <;> exact returns_of_mem (by decide)

theorem extractVideo_returns (s : State) (w : Word) (p : Profile) :
    (extractVideo s w p).Returns (returnedBy .mbextract) := by
  unfold extractVideo
  dsimp only
  split
  next => exact returns_of_mem (by decide)
  next =>
    split
    next => trivial
    next =>
      split
      next => trivial
      next => exact returns_of_mem (by decide)

theorem mbextractBody_returns (s : State) : (mbextractBody s).Returns (returnedBy .mbextract) := by
  unfold mbextractBody
  dsimp only
  split
  next =>
    split
    next => exact returns_of_mem (by decide)
    next =>
      split
      next => trivial
      next =>
        split
        next => trivial
        next =>
          split
          next => exact returns_of_mem (by decide)
          next => exact extractVideo_returns ..
  next => exact returns_of_mem (by decide)

theorem mbreleaseBody_returns (s : State) : (mbreleaseBody s).Returns [.ok, .badSlot] := by
  unfold mbreleaseBody
  dsimp only
  split
  next => exact returns_of_mem (by decide)
  next => split <;> exact returns_of_mem (by decide)

/-! ## Every command (R450) -/

/-- A command that is not gated completes with a code the table says it returns. -/
theorem commandBody_returns (i : Instr) {s : State} (hf : s.fatal = none) :
    (commandBody i s).Returns (returnedBy i) := by
  cases i with
  | w10get sp sl => exact w10getBody_returns sp sl s
  | w10set sp sl => exact w10setBody_returns sp sl s
  | rtpparse => exact rtpparseBody_returns s
  | hbrmtdec => exact hbrmtdecBody_returns s
  | profres => exact profresBody_returns s
  | crccomp sp sl => exact crccompBody_returns sp sl s
  | crccheck sp sl => exact crccheckBody_returns sp sl s
  | crcwords | fareset | faabort | psinit => exact returns_of_mem (by decide)
  | faadd => exact (faaddBody_endsFaadd hf).returns
  | psread => exact psreadBody_returns s
  | mbnext => exact mbnextBody_returns s
  | mbtype => exact mbtypeBody_returns s
  | mbextract => exact mbextractBody_returns s
  | mbrelease => exact mbreleaseBody_returns s

theorem code_of_commandBody {i : Instr} {s u : State} {code : Status} {flags : CmdFlags}
    (hf : s.fatal = none) (h : commandBody i s = .done u code flags) : code ∈ returnedBy i := by
  have hr := commandBody_returns i hf
  rwa [h] at hr

/-- Settles O24: a command that is not gated holds or completes, on its port. -/
theorem statusCodesPerCommand : Obligations.StatusCodesPerCommand := by
  refine ⟨by decide, fun i s t hf h => ?_⟩
  have hgate : ¬ s.fatal.isSome = true := by simp [hf]
  cases hp : i.port with
  | ingest =>
    rw [exec_of_ingest hp, runIngest_eq_next] at h
    obtain ⟨hfatal, -⟩ | ⟨-, u, code, flags, hbody, rfl⟩ | ⟨-, -, rfl⟩ := h
    · exact absurd hfatal hgate
    · exact .inr ⟨rfl, code_of_commandBody hf hbody⟩
    · exact .inl rfl
  | consumer =>
    rw [exec_of_consumer hp, runConsumer_eq_next] at h
    obtain ⟨hfatal, -⟩ | ⟨-, u, code, flags, hbody, rfl⟩ | ⟨-, -, rfl⟩ := h
    · exact absurd hfatal hgate
    · exact .inr ⟨rfl, code_of_commandBody hf hbody⟩
    · exact .inl rfl

end Sys2Proof.Machine
end

section
/-! SUPPORT. The state hardware reset gives: the words of its registers and the invariant of the block
(R490). -/

namespace Sys2Proof.Machine

open Sys2Proof

/-! ## The slots and the registers at reset (R60, R490) -/

theorem length_initialSlots (c : Config) : (initialSlots c).length = c.nslots := by
  unfold initialSlots
  split
  next h => exact h.symm
  next n h => simp [h]

/-- Slot 0 is FILLING at reset and every other slot FREE (R60). -/
theorem getElem?_initialSlots (c : Config) (k : Nat) :
    (initialSlots c)[k]? =
      if c.nslots ≤ k then none
      else if k = 0 then some Slot.initialFilling else some Slot.initialFree := by
  split
  next hk => exact List.getElem?_eq_none ((length_initialSlots c).trans_le hk)
  next hk =>
    obtain ⟨n, hn⟩ : ∃ n, c.nslots = n + 1 := ⟨c.nslots - 1, by omega⟩
    have hslots : initialSlots c = Slot.initialFilling :: List.replicate n Slot.initialFree := by
      rw [initialSlots, hn]
    rw [hslots]
    cases k with
    | zero => rfl
    | succ j => exact List.getElem?_replicate_of_lt (by omega)

/-- The block at its reset values, whatever the environment and the number of resets (R490). -/
theorem atReset_resetOf (c : Config) (agenda : List Move) (moves epoch : Nat) (hostData : Word) :
    atReset c { State.resetOf c with agenda, moves, epoch, hostData } := by
  refine ⟨fun r => ?registers, rfl, length_initialSlots c, rfl, ?rings, ?arrivals, rfl, rfl, rfl,
    rfl⟩
  case rings => rintro (_ | _) <;> rfl
  case arrivals => rintro (_ | _) <;> rfl
  case registers =>
    cases r with
    | slotInfo k =>
      change ((initialSlots c)[k]?.map slotInfoWord).getD 0 = resetWord c (.slotInfo k)
      rw [getElem?_initialSlots, resetWord]
      split
      · rfl
      · split <;> rfl
    | slotPad k =>
      change ((initialSlots c)[k]?.map Slot.padding).getD 0 = 0
      rw [getElem?_initialSlots]
      split
      · rfl
      · split <;> rfl
    | istat => exact (by decide : istatWord { code := .ok, busy := false, flags := {} } = 0)
    | hbLen => exact (by decide : 0#16 ++ 0#16 = 0#32)
    | profRes => exact (by decide : fieldAt (0xFF : BitVec 8) 0 ||| fieldAt (0 : BitVec 3) 8 = 0xFF)
    | crcWords => exact (by decide : fieldAt (0 : BitVec 10) 0 ||| fieldAt (0 : BitVec 10) 16 = 0)
    | faState => exact (by decide : faStateWord State.reset.fa = 0xFF05)
    | psState => exact (by decide : psStateWord State.reset.ps = 0)
    | cstat => exact (by decide : cstatWord { code := .ok, busy := false } = 0)
    | _ => rfl

/-- Settles O12: the model's reset state and the state hardware reset gives differ in what is not the
block's alone, and no byte of a buffer has been written in either. -/
theorem resetGivesResetValues : Obligations.ResetGivesResetValues :=
  ⟨fun c => atReset_resetOf c [] 0 0 0,
    fun s => ⟨rfl, atReset_resetOf s.config s.agenda s.moves (s.epoch + 1) s.hostData,
      fun _ => rfl⟩⟩

/-! ## The invariant at reset -/

theorem inv_resetOf {c : Config} (h : c.wf = true) : Inv (State.resetOf c) where
  memory := ⟨memWf_resetOf c, nofun⟩
  frame := frameInv_resetOf h
  switch := switchInv_of_initial rfl rfl rfl rfl rfl
  ports := ⟨nofun, nofun⟩

theorem testConfig_wf : testConfig.wf = true := by decide

/-- Settles O13: each part of the invariant holds at reset, and the test configuration is one the
model gives a meaning to. -/
theorem resetMeetsInvariant : Obligations.ResetMeetsInvariant :=
  ⟨fun _ h => inv_resetOf h, inv_resetOf testConfig_wf⟩

end Sys2Proof.Machine
end
